-- ==== Sys2Proof/Word.lean ====
section
/-! DEFINITION. The fixed-width words of DEFD: bytes of the stream, raw words and samples. -/

namespace Sys2Proof

/-- One byte of the sample stream (20_memory R60). -/
abbrev Byte := BitVec 8

/-- A raw word of the stream, always presented as 32 bits (20_memory R63). -/
abbrev Word := BitVec 32

/-- A sample: the top `DEPTH` bits of a raw word, zero-extended to the widest depth (00_scope, glossary). -/
abbrev Sample := BitVec 24

end Sys2Proof
end

