-- ==== Sys2Proof/Syntax.lean ====
section
/-! DEFINITION. The abstract syntax of DEFD: bit depths, regions, sequencer states, errors, events, and `Instr`,
one constructor per row of spec/opcode_table.json (30_encoding R118). Where a row's meaning depends on the place of
the pattern in the burst (30_encoding R91: which channel, which program, which region, which loop), that place is
an operand of the constructor. The blocks whose layout is a parameter (00_scope R7: `TC_LAYOUT`, `AC3_LAYOUT_BASE`,
`AC3_LAYOUT_EXT`) carry the values of the layout's fields in the layout's order, an extended AC3 block first those of as
many fields as a base block has, then the others (43_subsegments R227). -/

namespace Sys2Proof

/-- The three bit depths (10_state R22); the register `DEPTH` is an `Option Depth`, `none` being the value 0. -/
inductive Depth where
  | d16 | d20 | d24
deriving DecidableEq, Repr

/-- A depth as a number of bits. -/
def Depth.bits : Depth → Nat
  | .d16 => 16
  | .d20 => 20
  | .d24 => 24

/-- The seven CRC-protected regions in stream order (60_exceptions R292). -/
inductive Region where
  | metadata | audio0 | audio1 | extMeta | extAudio0 | extAudio1 | meter
deriving DecidableEq, Repr

/-- Region numbers (60_exceptions R292). -/
def Region.code : Region → Nat
  | .metadata => 0
  | .audio0 => 1
  | .audio1 => 2
  | .extMeta => 3
  | .extAudio0 => 4
  | .extAudio1 => 5
  | .meter => 6

/-- The sixteen values of the 4-bit register `ST` (10_state R26); `unused` is 15, which no rule enters (R29). -/
inductive SeqState where
  | idle | preamble | burstinfo | sync | metadata | framedist | progmeta | chanmeta | mdsubseg
  | audio | extsubseg | audioext | meter | complete | probescan | unused
deriving DecidableEq, Repr

/-- The numbering of `ST` (10_state R26). -/
def SeqState.code : SeqState → BitVec 4
  | .idle => 0
  | .preamble => 1
  | .burstinfo => 2
  | .sync => 3
  | .metadata => 4
  | .framedist => 5
  | .progmeta => 6
  | .chanmeta => 7
  | .mdsubseg => 8
  | .audio => 9
  | .extsubseg => 10
  | .audioext => 11
  | .meter => 12
  | .complete => 13
  | .probescan => 14
  | .unused => 15

/-- The fields a timecode layout may name (42_frame_header R195, R196); `unused` goes nowhere. -/
inductive TcField where
  | unused | ht | hu | mt | mu | st | su | df | ft | fu
deriving DecidableEq, Repr

/-- The fields of an AC3 record that a layout may name: those of 43_subsegments R226 and R227, in layout order, and
`further` ones, since a layout for real streams may hold fields the source does not name (93 G4; log 10). -/
inductive Ac3Field where
  | datarate | bsmod | acmod | cmixlev | surmixlev | dsurmod | lfeon | dialnorm | langcode | langcod
  | audprodie | mixlevel | roomtyp | copyrightb | origbs
  | dmixmod | ltrtcmixlev | ltrtsurmixlev | lorocmixlev | lorosurmixlev | dsurexmod | dheadphonmod
  | adconvtyp | hpfon | lpfon | atton | compre | compr1 | dynrnge | dynrng1 | dynrng2 | dynrng3 | dynrng4
  | further (k : Fin 31)
deriving DecidableEq, Repr

/-- The error kinds of 60_exceptions R281. -/
inductive ErrKind where
  | format | configuration | integrity | exhausted | internal
deriving DecidableEq, Repr

/-- The errors of 60_exceptions R282: a kind, a sub-code and the information value carried with them. -/
inductive ErrVal where
  | badPreamble (w : Word)
  | badPreamble2 (w : Word)
  | badSync (w : Sample)
  | notDolbyE (dtype : BitVec 5)
  | oddLength (len : BitVec 20)
  | noPreamble (off : Nat)
  | pcfgReserved (code : BitVec 6)
  | pcfgIllegal (code : BitVec 6)
  | pcfgRange (code : Nat)
  | frcReserved (code : BitVec 4)
  | midField
  | atHeader (i : BitVec 2)
  | inProbe (off : Nat)
  | padding
  | negRemainder
  | segOverrun (r : Region)
deriving DecidableEq, Repr

/-- The events of 60_exceptions R291 with their arguments. -/
inductive Event where
  | crc (r : Region) (reg : BitVec 16) (codeword : Sample)
  | biDtd (v : BitVec 5)
  | biMode (v : BitVec 2)
  | biDtype (v : BitVec 5)
  | probeLate (off : Nat)
  | segOverrun (r : Region) (excess : Nat)
  | subsegLen (id : BitVec 4) (declared used : Nat)
  | ac3Reserved (p : Fin 8) (field : Ac3Field) (value : Nat)
  | tcDiscont (expected found : Nat)
  | dropOn
  | dropOff
  | tcInvalid
  | desc (p : Fin 8) (len : Nat)
deriving DecidableEq, Repr

/-- One constructor per row of spec/opcode_table.json.
`base` is true for the loop of `MDSUBSEG` (records `AC3M`), false for that of `EXTSUBSEG` (records `AC3X`);
`c : Fin 8` is a channel, `p : Fin 8` a program, `r` a region. -/
inductive Instr where
  -- format CMD3 (30_encoding R92)
  | nop
  | readFrame
  | probe
  | align
  | clear
  | cmdReserved5
  | cmdReserved6
  | cmdReserved7
  -- format ST4 (10_state R26)
  | idle
  | preamble
  | burstinfo
  | sync
  | metadata
  | framedist
  | progmeta
  | chanmeta
  | mdsubseg
  | audio
  | extsubseg
  | audioext
  | meter
  | complete
  | probescan
  -- format W32 (30_encoding R93 to R96)
  | pa16
  | pa20
  | pa24
  | pb16
  | pb20
  | pb24
  | bi1 (streamNo : BitVec 3) (dtd : BitVec 5) (errf : BitVec 1) (mode : BitVec 2) (dtype : BitVec 5) (rsv : BitVec 16)
  | bi2 (len : BitVec 20) (rsv : BitVec 12)
  -- formats S16, S20, S24 (30_encoding R97, R98, R107, R109)
  | sync16 (k : BitVec 1)
  | sync20 (k : BitVec 1)
  | sync24 (k : BitVec 1)
  | keyw16 (k : BitVec 16)
  | keyw20 (k : BitVec 20)
  | keyw24 (k : BitVec 24)
  | crcw16 (r : Region) (c : BitVec 16)
  | crcw20 (r : Region) (c : BitVec 20)
  | crcw24 (r : Region) (c : BitVec 24)
  | audiosample16 (a : BitVec 16)
  | audiosample20 (a : BitVec 20)
  | audiosample24 (a : BitVec 24)
  -- fields (30_encoding R99 to R106, R108, R111, R112, R114)
  | mdhdr (mdid : BitVec 4) (size : BitVec 10) (pcfgc : BitVec 6) (frc : BitVec 4)
  | tcblock (vals : List Nat)
  | chsz (c : Fin 8) (size : BitVec 10)
  | extsz (size : BitVec 8)
  | metsz (size : BitVec 8)
  | pmeta (p : Fin 8) (ch : BitVec 8) (bw : BitVec 2)
  | cmeta (c : Fin 8) (rev : BitVec 4) (pool : BitVec 1) (bgain egain : BitVec 10)
  | nul (p : Fin 8)
  | stx (p : Fin 8)
  | etx (p : Fin 8)
  | print (p : Fin 8) (ch : BitVec 8)
  | charOther (p : Fin 8) (ch : BitVec 8)
  | subend (base : Bool)
  | ac3x (base : Bool) (len : BitVec 12)
  | ac3b (len : BitVec 12)
  | subskip2x (len : BitVec 12)
  | subskip3 (base : Bool) (len : BitVec 12)
  | subskip4to7 (base : Bool) (i : BitVec 2) (len : BitVec 12)
  | subskip8to15 (base : Bool) (i : BitVec 3) (len : BitVec 12)
  | ac3base (base : Bool) (p : Fin 8) (vals : List Nat)
  | ac3ext (base : Bool) (p : Fin 8) (vals more : List Nat)
  | addbsi0 (base : Bool) (p : Fin 8)
  | addbsi1 (base : Bool) (p : Fin 8) (len : BitVec 6)
  | peak (c : Fin 8) (v : BitVec 10)
  | rms (c : Fin 8) (v : BitVec 10)
  | pcfgValid (code : BitVec 6)
  | pcfgReserved (code : BitVec 6)
  | pcfgIllegal
  | frcLow (code : BitVec 4)
  | frcStd (code : BitVec 4)
  | frcReserved (code : BitVec 4)
  -- format PRIM (30_encoding R118): no bit pattern, invoked by name
  | crcfold (v : Sample)
  | payloadInit
  | pullword
  | getbits (n : Nat)
  | skipbits (k : Nat)
  | regionStart (first : Bool)
  | padseg (size : BitVec 10) (r : Region)
  | crccheck (r : Region)
  | timecode
  | continuityUpdate (idx : Nat) (df : Bool)
  | continuityInvalidate
  | descchar (p : Fin 8) (ch : BitVec 8)
  | subsegloop (base : Bool)
  | skipsubseg (len : BitVec 12)
  | ac3info (ext base : Bool)
  | addbsi (base : Bool) (p : Fin 8)
  | ac3check (base : Bool) (p : Fin 8)
  | audiohalf (lo hi : Nat) (r : Region)
  | pcfg (code : BitVec 6)
  | memRead (a n : Nat)
  | srcReadWord
  | srcMark
  | srcReset
  | srcAlign
  | raise (e : ErrVal)
  | emit (e : Event)
deriving DecidableEq, Repr

end Sys2Proof
end

