-- ==== Sys2Proof/Config.lean ====
section
/-! DEFINITION. The parameters of 00_scope R7. Those that a register holds are in the state's `cfg`; the others are the
structure `Params`, which decoding and every operation take as an argument (10_state R20: parameters of the step); the one
free function stands here without a body. `RESW` is 64, `CNTW` and `MARK_LOOKAHEAD` have no effect on any rule. The
values R7 gives are `defaultParams` in Decode.lean. -/

namespace Sys2Proof

/-- A layout: fields with their widths in bits, first field first in the stream (00_scope R7). -/
abbrev Layout (φ : Type) : Type := List (φ × Nat)

/-- The parameters of 00_scope R7 that are neither registers nor free functions. -/
structure Params where
  /-- `KEY_CLEAR_BEFORE_READ` (D10) -/
  keyClearBeforeRead : Bool
  /-- `KEY_PER_REGION` (D12) -/
  keyPerRegion : Bool
  /-- `CRC_CLEAR_AT_REGION_START` (D11) -/
  crcClearAtRegionStart : Bool
  /-- `CRC_CLEAR_AFTER_CHECK` (D11) -/
  crcClearAfterCheck : Bool
  /-- `SEG_OVERRUN_POLICY` (D16): true is `fault`, false is `warn_continue` -/
  segOverrunFaults : Bool
  /-- `SUBSEG_LEN_RECONCILE` (D22) -/
  subsegLenReconcile : Bool
  /-- `TC_LAYOUT` (D18) -/
  tcLayout : Layout TcField
  /-- `TC_STEP` -/
  tcStep : Nat
  /-- `AC3_LAYOUT_BASE` (D21) -/
  ac3LayoutBase : Layout Ac3Field
  /-- `AC3_LAYOUT_EXT` (D21) -/
  ac3LayoutExt : Layout Ac3Field
  /-- `PCFG_TABLE` (D25): channels and programs of codes 0 to 23, each at most 8 (10_state R33) -/
  pcfgTable : Vector (Fin 9 × Fin 9) 24
  /-- `DESC_MAX` (D20) -/
  descMax : Nat
deriving DecidableEq, Repr

namespace Config

/-- `TC2F` (42_frame_header R195, decision D34): hours, minutes, seconds, frames, drop-frame flag to the absolute
frame index. The spec leaves it uninterpreted; nothing here gives it a value (log 4). -/
opaque tc2f (hh mm ss ff : Nat) (df : Bool) : Nat

/-- `PROBE_WINDOW` at reset, 9 MiB (00_scope R7, 10_state R32). -/
def probeWindowReset : BitVec 32 := 9437184#32

/-- `PROBE_LATE` at reset (00_scope R7, 10_state R32). -/
def probeLateReset : BitVec 32 := 486#32

end Config

end Sys2Proof
end

