-- ==== Sys2Proof/WellFormed.lean ====
section
/-! DEFINITION. Which instructions are well formed: the operand ranges that the types do not already say. -/

namespace Sys2Proof

/-- Printable description characters (30_encoding R111). -/
def isPrintable (ch : BitVec 8) : Bool := 0x20#8 ≤ ch && ch ≤ 0x7E#8

/-- Well-formedness of errors handed to RAISE: each code lies in the range its sub-code stands for
(60_exceptions R282). -/
def ErrVal.wellFormed : ErrVal → Bool
  | .pcfgReserved code => 24#6 ≤ code && code ≤ 62#6
  | .pcfgIllegal code => code == 63#6
  | .pcfgRange code => 63 < code
  | .frcReserved code => code == 0#4 || 9#4 ≤ code
  | .notDolbyE dtype => dtype != 28#5
  | .badPreamble _ | .badPreamble2 _ | .badSync _ | .oddLength _ | .noPreamble _ | .midField | .atHeader _
  | .inProbe _ | .padding | .negRemainder | .segOverrun _ => true

/-- One value for each of these widths, each in its range. -/
def fitsWidths : List Nat → List Nat → Bool
  | [], [] => true
  | w :: ws, v :: vs => decide (v < 2 ^ w) && fitsWidths ws vs
  | _, _ => false

/-- The widths of a layout's fields (00_scope R7). -/
def Layout.widths {φ : Type} (l : Layout φ) : List Nat := l.map Prod.snd

/-- The layout in force for an AC3 block (43_subsegments R224). -/
def Params.ac3Layout (p : Params) (ext : Bool) : Layout Ac3Field := if ext then p.ac3LayoutExt else p.ac3LayoutBase

/-- Operand ranges, under these parameters: the character classes of 30_encoding R111, the code classes of R112 and R114, the width of a
`GETBITS` (40_bitreader R134), the channel range of an audio half (44_audio_meter R250), the fields of the layouts (42_frame_header
R196, 43_subsegments R226, R227), those of an extended AC3 block in two parts: as many as a base block has, and the rest. -/
def Instr.wellFormed (par : Params) : Instr → Bool
  | .print _ ch => isPrintable ch
  | .charOther _ ch => !(isPrintable ch || ch == 0#8 || ch == 2#8 || ch == 3#8)
  | .pcfgValid code => code ≤ 23#6
  | .pcfgReserved code => 24#6 ≤ code && code ≤ 62#6
  | .frcLow code => 1#4 ≤ code && code ≤ 5#4
  | .frcStd code => 6#4 ≤ code && code ≤ 8#4
  | .frcReserved code => code == 0#4 || 9#4 ≤ code
  | .getbits n => 1 ≤ n && n ≤ 32
  | .audiohalf lo hi _ => lo ≤ hi && hi ≤ 8
  | .raise e => e.wellFormed
  | .tcblock vals => fitsWidths par.tcLayout.widths vals
  | .ac3base _ _ vals => fitsWidths (par.ac3Layout false).widths vals
  | .ac3ext _ _ vals more =>
    fitsWidths (par.ac3Layout true).widths (vals ++ more) && (vals ++ more).take par.ac3LayoutBase.length == vals
  | .nop | .readFrame | .probe | .align | .clear | .cmdReserved5 | .cmdReserved6 | .cmdReserved7
  | .idle | .preamble | .burstinfo | .sync | .metadata | .framedist | .progmeta | .chanmeta | .mdsubseg
  | .audio | .extsubseg | .audioext | .meter | .complete | .probescan
  | .pa16 | .pa20 | .pa24 | .pb16 | .pb20 | .pb24 | .bi1 _ _ _ _ _ _ | .bi2 _ _
  | .sync16 _ | .sync20 _ | .sync24 _ | .keyw16 _ | .keyw20 _ | .keyw24 _
  | .crcw16 _ _ | .crcw20 _ _ | .crcw24 _ _ | .audiosample16 _ | .audiosample20 _ | .audiosample24 _
  | .mdhdr _ _ _ _ | .chsz _ _ | .extsz _ | .metsz _ | .pmeta _ _ _ | .cmeta _ _ _ _ _
  | .nul _ | .stx _ | .etx _ | .subend _ | .ac3x _ _ | .ac3b _ | .subskip2x _ | .subskip3 _ _
  | .subskip4to7 _ _ _ | .subskip8to15 _ _ _ | .addbsi0 _ _ | .addbsi1 _ _ _
  | .peak _ _ | .rms _ _ | .pcfgIllegal
  | .crcfold _ | .payloadInit | .pullword | .skipbits _ | .regionStart _ | .padseg _ _ | .crccheck _
  | .timecode | .continuityUpdate _ _ | .continuityInvalidate | .descchar _ _ | .subsegloop _ | .skipsubseg _
  | .ac3info _ _ | .addbsi _ _ | .ac3check _ _ | .pcfg _ | .memRead _ _ | .srcReadWord | .srcMark | .srcReset
  | .srcAlign | .emit _ => true

end Sys2Proof
end

