-- ==== Sys2Proof/Decode.lean ====
section
/-! DEFINITION. Decoding and encoding of DEFD's patterns (30_encoding). A pattern is read at a `Slot`, the place in
the command port, the register `ST` or the burst map (30_encoding R91) that says which format is in force; the
decoder gets the parameters, the slot, the number of bits and the bits, and answers an instruction or a rejection by
name. First the values that 00_scope R7 gives the parameters. -/

namespace Sys2Proof

/-- `v[lo+w-1 : lo]` of 00_scope R11. -/
def slice (b lo w : Nat) : BitVec w := BitVec.ofNat w (b >>> lo)

/-! ### The values of 00_scope R7 -/

/-- The default of `TC_LAYOUT`, 64 bits (42_frame_header R196, D18; log 11). -/
def defaultTcLayout : Layout TcField :=
  [(.unused, 10), (.ht, 2), (.hu, 4), (.unused, 9), (.mt, 3), (.mu, 4), (.unused, 9), (.st, 3), (.su, 4),
    (.unused, 9), (.df, 1), (.ft, 2), (.fu, 4)]

/-- The default of `AC3_LAYOUT_BASE`, 42 bits (43_subsegments R226, D21; log 10). -/
def defaultAc3Base : Layout Ac3Field :=
  [(.datarate, 5), (.bsmod, 3), (.acmod, 3), (.cmixlev, 2), (.surmixlev, 2), (.dsurmod, 2), (.lfeon, 1),
    (.dialnorm, 5), (.langcode, 1), (.langcod, 8), (.audprodie, 1), (.mixlevel, 5), (.roomtyp, 2),
    (.copyrightb, 1), (.origbs, 1)]

/-- The default of `AC3_LAYOUT_EXT`, 106 bits: the fields of `AC3_LAYOUT_BASE` and eighteen more
(43_subsegments R227, D21; log 10). -/
def defaultAc3Ext : Layout Ac3Field :=
  defaultAc3Base ++
  [(.dmixmod, 2), (.ltrtcmixlev, 3), (.ltrtsurmixlev, 3), (.lorocmixlev, 3), (.lorosurmixlev, 3), (.dsurexmod, 2),
    (.dheadphonmod, 2), (.adconvtyp, 1), (.hpfon, 1), (.lpfon, 1), (.atton, 1), (.compre, 1), (.compr1, 8),
    (.dynrnge, 1), (.dynrng1, 8), (.dynrng2, 8), (.dynrng3, 8), (.dynrng4, 8)]

/-- The default of `PCFG_TABLE`: channels and programs of codes 0 to 23 (45_progconfig R271). Rows 0, 11 and 18 are the
source's; the others are the spec's default (D25; log 9). -/
def defaultPcfgTable : Vector (Fin 9 × Fin 9) 24 :=
  #v[(8, 2), (8, 3), (8, 2), (8, 3), (8, 4), (8, 5), (8, 4), (8, 5), (8, 6), (8, 7), (8, 8),
    (6, 1), (6, 2), (6, 3), (6, 3), (6, 4), (6, 5), (6, 6),
    (4, 1), (4, 2), (4, 3), (4, 4), (8, 1), (8, 1)]

/-- The parameters at the values 00_scope R7 gives them (log 8). -/
def defaultParams : Params where
  keyClearBeforeRead := true
  keyPerRegion := true
  crcClearAtRegionStart := true
  crcClearAfterCheck := true
  segOverrunFaults := false
  subsegLenReconcile := true
  tcLayout := defaultTcLayout
  tcStep := 2
  ac3LayoutBase := defaultAc3Base
  ac3LayoutExt := defaultAc3Ext
  pcfgTable := defaultPcfgTable
  descMax := 32

/-! ### ROM constants of the burst layer -/

/-- Preamble word 1 of a depth (30_encoding R93). -/
def Depth.preamble1 : Depth → Word
  | .d16 => 0xF8720000#32
  | .d20 => 0x6F872000#32
  | .d24 => 0x96F87200#32

/-- Preamble word 2 of a depth (30_encoding R94). -/
def Depth.preamble2 : Depth → Word
  | .d16 => 0x4E1F0000#32
  | .d20 => 0x54E1F000#32
  | .d24 => 0xA54E1F00#32

/-- `SYNCK`, the sync constant of a depth (30_encoding R97). -/
def Depth.syncConst : Depth → Sample
  | .d16 => 0x078E#24
  | .d20 => 0x0788E#24
  | .d24 => 0x07888E#24

/-- The depth a preamble word 1 selects, if it is one (30_encoding R93). -/
def preamble1Depth (w : Word) : Option Depth :=
  if w = Depth.d16.preamble1 then some .d16
  else if w = Depth.d20.preamble1 then some .d20
  else if w = Depth.d24.preamble1 then some .d24
  else none

/-- The depth a preamble word 2 belongs to, if it is one (30_encoding R94). -/
def preamble2Depth (w : Word) : Option Depth :=
  if w = Depth.d16.preamble2 then some .d16
  else if w = Depth.d20.preamble2 then some .d20
  else if w = Depth.d24.preamble2 then some .d24
  else none

/-- The sync test of 30_encoding R97: every bit but bit 0 equals the depth's constant. -/
def syncMatches (d : Depth) (w : Sample) : Bool := w &&& 0xFFFFFE#24 == d.syncConst

/-! ### Blocks with a layout -/

/-- The number of bits of a layout. -/
def Layout.bits {φ : Type} (l : Layout φ) : Nat := l.widths.sum

/-- The values of fields of these widths in a block of bits, the first field most significant (00_scope R12). -/
def splitBits : List Nat → Nat → List Nat
  | [], _ => []
  | w :: ws, b => (b >>> ws.sum) % 2 ^ w :: splitBits ws b

/-- The block of bits of these values in fields of these widths. -/
def joinBits : List Nat → List Nat → Nat
  | _ :: ws, v :: vs => v * 2 ^ ws.sum + joinBits ws vs
  | _, _ => 0

/-! ### Slots, codes and rejections -/

/-- The places where a pattern is read. `cmd` is the command port, `state` the register `ST`; the others are parts of
the burst map (30_encoding R91), with the depth, region, channel, program or loop they stand in. -/
inductive Slot where
  | cmd
  | state
  | preamble1
  | preamble2
  | burst1
  | burst2
  | sync (d : Depth)
  | key (d : Depth)
  | crcWord (d : Depth) (r : Region)
  | audioSample (d : Depth)
  | mdhdr
  | tcblock
  | chsz (c : Fin 8)
  | extsz
  | metsz
  | pmeta (p : Fin 8)
  | cmeta (c : Fin 8)
  | descChar (p : Fin 8)
  | subHeader (base : Bool)
  | ac3Block (ext base : Bool) (p : Fin 8)
  | addbsi (base : Bool) (p : Fin 8)
  | peak (c : Fin 8)
  | rms (c : Fin 8)
  | pcfgCode
  | frcCode
deriving DecidableEq, Repr

/-- An encoded pattern: where it is read, how many bits it has, and the bits, the first stream bit being the most
significant (00_scope R12). -/
structure Code where
  slot : Slot
  nbits : Nat
  bits : Nat
deriving DecidableEq, Repr

/-- Why a code is no instruction. -/
inductive Reject where
  /-- the bits do not fit the stated number of bits -/
  | tooWide
  /-- the slot's format has another number of bits -/
  | wrongLength
  /-- `ST = 15` (10_state R29) -/
  | stUnused
  /-- not a preamble word 1 (30_encoding R112) -/
  | notPreamble1 (w : Word)
  /-- not a preamble word 2 (30_encoding R112) -/
  | notPreamble2 (w : Word)
  /-- not the depth's sync word (30_encoding R112) -/
  | notSync (d : Depth) (w : Sample)
deriving DecidableEq, Repr

/-- The number of bits a code of this slot may have (30_encoding R92 to R109); a block with a layout has the layout's
bits. -/
def Slot.admits (par : Params) : Slot → Nat → Bool
  | .cmd, n => n == 3
  | .state, n => n == 4
  | .preamble1, n | .preamble2, n | .burst1, n | .burst2, n => n == 32
  | .sync d, n | .key d, n | .crcWord d _, n | .audioSample d, n => n == d.bits
  | .mdhdr, n => n == 24
  | .tcblock, n => n == par.tcLayout.bits
  | .chsz _, n | .pmeta _, n | .peak _, n | .rms _, n => n == 10
  | .extsz, n | .metsz, n | .descChar _, n => n == 8
  | .cmeta _, n => n == 25
  | .subHeader _, n => n == 4 || n == 16
  | .ac3Block ext _ _, n => n == (par.ac3Layout ext).bits
  | .addbsi _ _, n => n == 1 || n == 7
  | .pcfgCode, n => n == 6
  | .frcCode, n => n == 4

/-! ### The decoder -/

/-- Command codes (30_encoding R92). -/
def decodeCmd (b : BitVec 3) : Instr :=
  match b.toNat with
  | 0 => .nop
  | 1 => .readFrame
  | 2 => .probe
  | 3 => .align
  | 4 => .clear
  | 5 => .cmdReserved5
  | 6 => .cmdReserved6
  | _ => .cmdReserved7

/-- The operation of a value of `ST` (10_state R26); 15 has none (R29). -/
def decodeState (b : BitVec 4) : Except Reject Instr :=
  match b.toNat with
  | 0 => .ok .idle
  | 1 => .ok .preamble
  | 2 => .ok .burstinfo
  | 3 => .ok .sync
  | 4 => .ok .metadata
  | 5 => .ok .framedist
  | 6 => .ok .progmeta
  | 7 => .ok .chanmeta
  | 8 => .ok .mdsubseg
  | 9 => .ok .audio
  | 10 => .ok .extsubseg
  | 11 => .ok .audioext
  | 12 => .ok .meter
  | 13 => .ok .complete
  | 14 => .ok .probescan
  | _ => .error .stUnused

/-- Preamble word 1 (30_encoding R93). -/
def decodePreamble1 (w : Word) : Except Reject Instr :=
  match preamble1Depth w with
  | some .d16 => .ok .pa16
  | some .d20 => .ok .pa20
  | some .d24 => .ok .pa24
  | none => .error (.notPreamble1 w)

/-- Preamble word 2 (30_encoding R94). -/
def decodePreamble2 (w : Word) : Except Reject Instr :=
  match preamble2Depth w with
  | some .d16 => .ok .pb16
  | some .d20 => .ok .pb20
  | some .d24 => .ok .pb24
  | none => .error (.notPreamble2 w)

/-- Sync word of a depth (30_encoding R97). -/
def decodeSync (d : Depth) (b : Nat) : Except Reject Instr :=
  if syncMatches d (BitVec.ofNat 24 b) then
    match d with
    | .d16 => .ok (.sync16 (slice b 0 1))
    | .d20 => .ok (.sync20 (slice b 0 1))
    | .d24 => .ok (.sync24 (slice b 0 1))
  else .error (.notSync d (BitVec.ofNat 24 b))

/-- A description character by its class (30_encoding R111). -/
def decodeChar (p : Fin 8) (ch : BitVec 8) : Instr :=
  if ch = 0x00#8 then .nul p
  else if ch = 0x02#8 then .stx p
  else if ch = 0x03#8 then .etx p
  else if isPrintable ch then .print p ch
  else .charOther p ch

/-- A sixteen-bit subsegment header, id and length (30_encoding R104); id 0 has no length and is no such header. -/
def decodeSubHeader (base : Bool) (id : BitVec 4) (len : BitVec 12) : Except Reject Instr :=
  match id.toNat with
  | 0 => .error .wrongLength
  | 1 => .ok (.ac3x base len)
  | 2 => .ok (if base then .ac3b len else .subskip2x len)
  | 3 => .ok (.subskip3 base len)
  | n => if n < 8 then .ok (.subskip4to7 base (slice n 0 2) len) else .ok (.subskip8to15 base (slice n 0 3) len)

/-- Program-configuration codes by class (30_encoding R112). -/
def decodePcfg (code : BitVec 6) : Instr :=
  if code ≤ 23#6 then .pcfgValid code
  else if code ≤ 62#6 then .pcfgReserved code
  else .pcfgIllegal

/-- Frame-rate codes by class (30_encoding R114). -/
def decodeFrc (code : BitVec 4) : Instr :=
  if code = 0#4 then .frcReserved code
  else if code ≤ 5#4 then .frcLow code
  else if code ≤ 8#4 then .frcStd code
  else .frcReserved code

/-- The instruction of a code whose length its slot admits. -/
def decodeAt (par : Params) (slot : Slot) (nbits b : Nat) : Except Reject Instr :=
  match slot with
  | .cmd => .ok (decodeCmd (slice b 0 3))
  | .state => decodeState (slice b 0 4)
  | .preamble1 => decodePreamble1 (BitVec.ofNat 32 b)
  | .preamble2 => decodePreamble2 (BitVec.ofNat 32 b)
  | .burst1 => .ok (.bi1 (slice b 29 3) (slice b 24 5) (slice b 23 1) (slice b 21 2) (slice b 16 5) (slice b 0 16))
  | .burst2 => .ok (.bi2 (slice b 12 20) (slice b 0 12))
  | .sync d => decodeSync d b
  | .key .d16 => .ok (.keyw16 (slice b 0 16))
  | .key .d20 => .ok (.keyw20 (slice b 0 20))
  | .key .d24 => .ok (.keyw24 (slice b 0 24))
  | .crcWord .d16 r => .ok (.crcw16 r (slice b 0 16))
  | .crcWord .d20 r => .ok (.crcw20 r (slice b 0 20))
  | .crcWord .d24 r => .ok (.crcw24 r (slice b 0 24))
  | .audioSample .d16 => .ok (.audiosample16 (slice b 0 16))
  | .audioSample .d20 => .ok (.audiosample20 (slice b 0 20))
  | .audioSample .d24 => .ok (.audiosample24 (slice b 0 24))
  | .mdhdr => .ok (.mdhdr (slice b 20 4) (slice b 10 10) (slice b 4 6) (slice b 0 4))
  | .tcblock => .ok (.tcblock (splitBits par.tcLayout.widths b))
  | .chsz c => .ok (.chsz c (slice b 0 10))
  | .extsz => .ok (.extsz (slice b 0 8))
  | .metsz => .ok (.metsz (slice b 0 8))
  | .pmeta p => .ok (.pmeta p (slice b 2 8) (slice b 0 2))
  | .cmeta c => .ok (.cmeta c (slice b 21 4) (slice b 20 1) (slice b 10 10) (slice b 0 10))
  | .descChar p => .ok (decodeChar p (slice b 0 8))
  | .subHeader base =>
    if nbits = 4 then (if b = 0 then .ok (.subend base) else .error .wrongLength)
    else decodeSubHeader base (slice b 12 4) (slice b 0 12)
  | .ac3Block false base p => .ok (.ac3base base p (splitBits (par.ac3Layout false).widths b))
  | .ac3Block true base p =>
    let v := splitBits (par.ac3Layout true).widths b
    .ok (.ac3ext base p (v.take par.ac3LayoutBase.length) (v.drop par.ac3LayoutBase.length))
  | .addbsi base p =>
    if nbits = 1 then (if b = 0 then .ok (.addbsi0 base p) else .error .wrongLength)
    else if slice b 6 1 = 1#1 then .ok (.addbsi1 base p (slice b 0 6)) else .error .wrongLength
  | .peak c => .ok (.peak c (slice b 0 10))
  | .rms c => .ok (.rms c (slice b 0 10))
  | .pcfgCode => .ok (decodePcfg (slice b 0 6))
  | .frcCode => .ok (decodeFrc (slice b 0 4))

/-- The decoder: total on any code. -/
def decode (par : Params) (u : Code) : Except Reject Instr :=
  if 2 ^ u.nbits ≤ u.bits then .error .tooWide
  else if u.slot.admits par u.nbits then decodeAt par u.slot u.nbits u.bits
  else .error .wrongLength

/-! ### The encoder -/

/-- The pattern of an instruction, bit field by bit field (30_encoding R92 to R114); `none` for the operations that
have no bit pattern (format PRIM, 30_encoding R118). -/
def encode (par : Params) : Instr → Option Code
  | .nop => some ⟨.cmd, 3, 0⟩
  | .readFrame => some ⟨.cmd, 3, 1⟩
  | .probe => some ⟨.cmd, 3, 2⟩
  | .align => some ⟨.cmd, 3, 3⟩
  | .clear => some ⟨.cmd, 3, 4⟩
  | .cmdReserved5 => some ⟨.cmd, 3, 5⟩
  | .cmdReserved6 => some ⟨.cmd, 3, 6⟩
  | .cmdReserved7 => some ⟨.cmd, 3, 7⟩
  | .idle => some ⟨.state, 4, 0⟩
  | .preamble => some ⟨.state, 4, 1⟩
  | .burstinfo => some ⟨.state, 4, 2⟩
  | .sync => some ⟨.state, 4, 3⟩
  | .metadata => some ⟨.state, 4, 4⟩
  | .framedist => some ⟨.state, 4, 5⟩
  | .progmeta => some ⟨.state, 4, 6⟩
  | .chanmeta => some ⟨.state, 4, 7⟩
  | .mdsubseg => some ⟨.state, 4, 8⟩
  | .audio => some ⟨.state, 4, 9⟩
  | .extsubseg => some ⟨.state, 4, 10⟩
  | .audioext => some ⟨.state, 4, 11⟩
  | .meter => some ⟨.state, 4, 12⟩
  | .complete => some ⟨.state, 4, 13⟩
  | .probescan => some ⟨.state, 4, 14⟩
  | .pa16 => some ⟨.preamble1, 32, 0xF8720000⟩
  | .pa20 => some ⟨.preamble1, 32, 0x6F872000⟩
  | .pa24 => some ⟨.preamble1, 32, 0x96F87200⟩
  | .pb16 => some ⟨.preamble2, 32, 0x4E1F0000⟩
  | .pb20 => some ⟨.preamble2, 32, 0x54E1F000⟩
  | .pb24 => some ⟨.preamble2, 32, 0xA54E1F00⟩
  | .bi1 s d e m t r => some ⟨.burst1, 32, (s ++ d ++ e ++ m ++ t ++ r).toNat⟩
  | .bi2 l r => some ⟨.burst2, 32, (l ++ r).toNat⟩
  | .sync16 k => some ⟨.sync .d16, 16, (0b000001111000111#15 ++ k).toNat⟩
  | .sync20 k => some ⟨.sync .d20, 20, (0b0000011110001000111#19 ++ k).toNat⟩
  | .sync24 k => some ⟨.sync .d24, 24, (0b00000111100010001000111#23 ++ k).toNat⟩
  | .keyw16 k => some ⟨.key .d16, 16, k.toNat⟩
  | .keyw20 k => some ⟨.key .d20, 20, k.toNat⟩
  | .keyw24 k => some ⟨.key .d24, 24, k.toNat⟩
  | .crcw16 r c => some ⟨.crcWord .d16 r, 16, c.toNat⟩
  | .crcw20 r c => some ⟨.crcWord .d20 r, 20, c.toNat⟩
  | .crcw24 r c => some ⟨.crcWord .d24 r, 24, c.toNat⟩
  | .audiosample16 a => some ⟨.audioSample .d16, 16, a.toNat⟩
  | .audiosample20 a => some ⟨.audioSample .d20, 20, a.toNat⟩
  | .audiosample24 a => some ⟨.audioSample .d24, 24, a.toNat⟩
  | .mdhdr i s c t => some ⟨.mdhdr, 24, (i ++ s ++ c ++ t).toNat⟩
  | .tcblock v => some ⟨.tcblock, par.tcLayout.bits, joinBits par.tcLayout.widths v⟩
  | .chsz c s => some ⟨.chsz c, 10, s.toNat⟩
  | .extsz x => some ⟨.extsz, 8, x.toNat⟩
  | .metsz m => some ⟨.metsz, 8, m.toNat⟩
  | .pmeta p c b => some ⟨.pmeta p, 10, (c ++ b).toNat⟩
  | .cmeta c r p b e => some ⟨.cmeta c, 25, (r ++ p ++ b ++ e).toNat⟩
  | .nul p => some ⟨.descChar p, 8, 0x00⟩
  | .stx p => some ⟨.descChar p, 8, 0x02⟩
  | .etx p => some ⟨.descChar p, 8, 0x03⟩
  | .print p c => some ⟨.descChar p, 8, c.toNat⟩
  | .charOther p c => some ⟨.descChar p, 8, c.toNat⟩
  | .subend base => some ⟨.subHeader base, 4, 0⟩
  | .ac3x base l => some ⟨.subHeader base, 16, (0b0001#4 ++ l).toNat⟩
  | .ac3b l => some ⟨.subHeader true, 16, (0b0010#4 ++ l).toNat⟩
  | .subskip2x l => some ⟨.subHeader false, 16, (0b0010#4 ++ l).toNat⟩
  | .subskip3 base l => some ⟨.subHeader base, 16, (0b0011#4 ++ l).toNat⟩
  | .subskip4to7 base i l => some ⟨.subHeader base, 16, (0b01#2 ++ i ++ l).toNat⟩
  | .subskip8to15 base i l => some ⟨.subHeader base, 16, (0b1#1 ++ i ++ l).toNat⟩
  | .ac3base base p v =>
    some ⟨.ac3Block false base p, (par.ac3Layout false).bits, joinBits (par.ac3Layout false).widths v⟩
  | .ac3ext base p v w =>
    some ⟨.ac3Block true base p, (par.ac3Layout true).bits, joinBits (par.ac3Layout true).widths (v ++ w)⟩
  | .addbsi0 base p => some ⟨.addbsi base p, 1, 0⟩
  | .addbsi1 base p l => some ⟨.addbsi base p, 7, (0b1#1 ++ l).toNat⟩
  | .peak c v => some ⟨.peak c, 10, v.toNat⟩
  | .rms c v => some ⟨.rms c, 10, v.toNat⟩
  | .pcfgValid c => some ⟨.pcfgCode, 6, c.toNat⟩
  | .pcfgReserved c => some ⟨.pcfgCode, 6, c.toNat⟩
  | .pcfgIllegal => some ⟨.pcfgCode, 6, 63⟩
  | .frcLow t => some ⟨.frcCode, 4, t.toNat⟩
  | .frcStd t => some ⟨.frcCode, 4, t.toNat⟩
  | .frcReserved t => some ⟨.frcCode, 4, t.toNat⟩
  | .crcfold _ => none
  | .payloadInit => none
  | .pullword => none
  | .getbits _ => none
  | .skipbits _ => none
  | .regionStart _ => none
  | .padseg _ _ => none
  | .crccheck _ => none
  | .timecode => none
  | .continuityUpdate _ _ => none
  | .continuityInvalidate => none
  | .descchar _ _ => none
  | .subsegloop _ => none
  | .skipsubseg _ => none
  | .ac3info _ _ => none
  | .addbsi _ _ => none
  | .ac3check _ _ => none
  | .audiohalf _ _ _ => none
  | .pcfg _ => none
  | .memRead _ _ => none
  | .srcReadWord => none
  | .srcMark => none
  | .srcReset => none
  | .srcAlign => none
  | .raise _ => none
  | .emit _ => none

/-! ### Reading a table word without its place -/

/-- The slots a bare word of `nbits` bits (in whole bytes) is tried at, in order (log 6): the opcode table gives a
word no place in the burst, and several formats share one width. The table's blocks have the default layouts' widths. -/
def tableSlots : Nat → List (Slot × Nat)
  | 8 => [(.cmd, 3), (.state, 4), (.pcfgCode, 6), (.descChar 0, 8)]
  | 16 => [(.subHeader true, 16), (.sync .d16, 16), (.chsz 0, 10), (.key .d16, 16)]
  | 24 => [(.sync .d20, 20), (.sync .d24, 24), (.mdhdr, 24)]
  | 32 => [(.preamble1, 32), (.preamble2, 32), (.burst1, 32)]
  | 48 => [(.ac3Block false true 0, 42)]
  | 64 => [(.tcblock, 64)]
  | 112 => [(.ac3Block true true 0, 106)]
  | _ => []

/-- The first slot of a list at which the decoder reads the word. -/
def firstCode (par : Params) (w : Nat) : List (Slot × Nat) → Option Code
  | [] => none
  | (slot, n) :: rest =>
    match decode par ⟨slot, n, w⟩ with
    | .ok _ => some ⟨slot, n, w⟩
    | .error _ => firstCode par w rest

/-- The code a bare table word is taken for (log 6). -/
def tableCode (par : Params) (nbits w : Nat) : Option Code := firstCode par w (tableSlots nbits)

/-- The instruction the decoder reads from a bare table word of `nbits` bits, the parameters being the defaults (log 6). -/
def decodeTableWord (nbits w : Nat) : Option Instr :=
  match tableCode defaultParams nbits w with
  | some u => (decode defaultParams u).toOption
  | none => none

end Sys2Proof
end

