-- ==== Sys2Proof/Machine/State.lean ====
section
/-! DEFINITION. The state of DEFD (10_state R20) as plain data, grouped as the spec groups it; the reasons a step can
stop; the state after power-on reset (70_reset R320, R321). Field names are the spec's register names. -/

namespace Sys2Proof.Machine

/-! ### The sample stream -/

/-- The stream `MEM` (10_state R42): its length and the bytes that are not zero, by rising address. A byte below `len`
that is not listed is 0 (log 3); at and above `len` there is no byte (20_memory R62). -/
structure Memory where
  len : Nat
  cells : List Host.Cell
deriving DecidableEq, Repr

/-- The bit-reader registers (10_state R22). -/
structure BitReader where
  /-- active bit depth, `none` being the value 0 -/
  DEPTH : Option Depth
  /-- residual buffer -/
  RES : BitVec 64
  /-- number of valid residual bits -/
  RESCNT : Nat
  /-- descrambling key, zero-extended -/
  KEY : Sample
  /-- key-presence flag -/
  KEYP : Bool
  /-- running CRC remainder -/
  CRC : BitVec 16
  /-- bits delivered since the last region start -/
  BITCNT : Nat
  /-- bytes pulled since the payload's start -/
  BYTECNT : Nat
deriving DecidableEq, Repr

/-- The burst-info registers (10_state R24). -/
structure BurstInfo where
  BI_STREAMNO : BitVec 3
  BI_DTD : BitVec 5
  BI_ERRF : BitVec 1
  BI_MODE : BitVec 2
  BI_DTYPE : BitVec 5
  BI_BITLEN : BitVec 20
deriving DecidableEq, Repr

/-- The sequencer register `ST` (10_state R26) and the fields of `STATUS` (R30). -/
structure Sequencer where
  ST : SeqState
  BUSY : Bool
  DONE : Bool
  ERRK : BitVec 3
  ERRS : BitVec 4
  ERRST : BitVec 4
deriving DecidableEq, Repr

/-- The configuration registers (10_state R31, R32). -/
structure CfgRegs where
  STREAMS2 : Bool
  PACK3 : Bool
  PROBE_WINDOW : BitVec 32
  PROBE_LATE : BitVec 32
  PROBE_OFF : BitVec 32
deriving DecidableEq, Repr

/-- The scalar frame registers, the flag `LFR` and the subsegment counts (10_state R33, R34, R38). -/
structure FrameRegs where
  MDID : BitVec 4
  MDSIZE : BitVec 10
  PCFGC : BitVec 6
  NCH : BitVec 4
  NPROG : BitVec 4
  FRC : BitVec 4
  LFR : Bool
  EXTSZ : BitVec 8
  METSZ : BitVec 8
  NSUBM : BitVec 8
  NSUBX : BitVec 8
deriving DecidableEq, Repr

/-- The timecode registers and flags (10_state R33, R34), at R33's widths. -/
structure TcRegs where
  TC_HT : BitVec 2
  TC_HU : BitVec 4
  TC_MT : BitVec 3
  TC_MU : BitVec 4
  TC_ST : BitVec 3
  TC_SU : BitVec 4
  TC_FT : BitVec 2
  TC_FU : BitVec 4
  TC_DF : Bool
  TCVALID : Bool
  FRAMEIDX : Nat
deriving DecidableEq, Repr

/-- The per-channel arrays (10_state R35). -/
structure ChanArrays where
  CHSZ : Vector (BitVec 10) 8
  REVID : Vector (BitVec 4) 8
  BITPOOL : Vector (BitVec 1) 8
  BGAIN : Vector (BitVec 10) 8
  EGAIN : Vector (BitVec 10) 8
  PEAK : Vector (BitVec 10) 8
  RMS : Vector (BitVec 10) 8
deriving DecidableEq, Repr

/-- The per-program arrays (10_state R36). -/
structure ProgArrays where
  DCHAR : Vector (BitVec 8) 8
  BWID : Vector (BitVec 2) 8
deriving DecidableEq, Repr

/-- One AC3 bitstream-info record (10_state R37). `FIELDS` holds one value per field that a layout can name, at the place
`Ac3Field.index` gives (Machine/Operands.lean); a field of a layout has at most the 32 bits of a `GETBITS`. -/
structure Ac3Rec where
  VALID : Bool
  EXT : Bool
  FIELDS : Vector (BitVec 32) 64
  ADDBSIE : Bool
  ADDBSIL : BitVec 6
deriving DecidableEq, Repr

/-- The timecode continuity registers (10_state R39). -/
structure Continuity where
  LASTIDX_V : Bool
  LASTIDX : Nat
  LASTDROP_V : Bool
  LASTDROP : Bool
deriving DecidableEq, Repr

/-- The description text registers of one program (10_state R40). `RUNLEN` and `DESCLEN` are the lengths of the two
lists (log 28). -/
structure DescText where
  RUN : List (BitVec 8)
  RUNOPEN : Bool
  DESC : List (BitVec 8)
  DESC_V : Bool
deriving DecidableEq, Repr

/-- The Sample Source as DEFD sees it (10_state R42). -/
structure Source where
  MEM : Memory
  POS : Nat
  MARKPOS : Nat
  MARK_V : Bool
deriving DecidableEq, Repr

/-! ### The model's own interface data -/

/-- What is asked of DEFD from outside, one entry at a time (log 1, 7). -/
inductive Request where
  /-- a host write of a register by its number (10_state R31, R32, R45) -/
  | write (reg : Nat) (v : BitVec 32)
  /-- a host read of a register by its number -/
  | read (reg : Nat)
  /-- the host moves the stream position between commands (70_reset R333) -/
  | seek (pos : Nat)
  /-- a command to be run one sequencer state per step (60_exceptions R298) -/
  | stepped (code : BitVec 3)
  /-- read the next unit of the stream at this slot and act on it -/
  | recognise (slot : Slot)
  /-- perform one operation by name (00_scope R9) -/
  | invoke (i : Instr)
deriving DecidableEq, Repr

/-- What the last host read or the last primitive invoked by name handed back (log 5). -/
inductive Ret where
  | none
  | endOfData
  | num (v : Nat)
  | bytes (b : List Byte)
  | pair (channels programs : Nat)
deriving DecidableEq, Repr

/-- The whole state (10_state R20). -/
structure State where
  /-- bit-reader registers (R22) -/
  br : BitReader
  /-- burst-info registers (R24) -/
  bi : BurstInfo
  /-- `ST` and `STATUS` (R26, R30) -/
  seq : Sequencer
  /-- configuration registers (R31, R32) -/
  cfg : CfgRegs
  /-- scalar frame registers (R33, R34, R38) -/
  fr : FrameRegs
  /-- timecode registers (R33, R34) -/
  tc : TcRegs
  /-- per-channel arrays (R35) -/
  ch : ChanArrays
  /-- per-program arrays (R36) -/
  pg : ProgArrays
  /-- AC3 records of the `MDSUBSEG` loop (R37) -/
  ac3m : Vector Ac3Rec 8
  /-- AC3 records of the `EXTSUBSEG` loop (R37) -/
  ac3x : Vector Ac3Rec 8
  /-- timecode continuity (R39) -/
  cont : Continuity
  /-- description text (R40) -/
  desc : Vector DescText 8
  /-- the Sample Source (R42) -/
  src : Source
  /-- the event trace `EV` (R43) -/
  ev : List Event
  /-- MODEL: requests not yet taken (log 1, 7) -/
  port : List Request
  /-- MODEL: the value handed back last (log 5) -/
  ret : Ret
  /-- MODEL: the error value the last command returned, with `ST` at the raise (60_exceptions R283; log 5) -/
  lastErr : Option (ErrVal × SeqState)
  /-- MODEL: the local variable `d` of `PREAMBLE` (41_burst R167; log 5) -/
  pd : Option Depth
  /-- MODEL: the parameters of the step (00_scope R7, 10_state R20), which nothing writes (log 31) -/
  par : Params
deriving DecidableEq, Repr

/-! ### Reasons to stop -/

/-- The machine stops with a fault. -/
inductive Fault where
  /-- raised by a step at `ST = 15`: the spec gives no transition there (10_state R29, 93 U10). Safe: no rule enters it. -/
  | stUnused
  /-- raised by a loop of the rules that runs out of the fuel the model gives it; never reached, since the fuel covers the
  rest of the stream (log 24). Safe. -/
  | loopFuel
deriving DecidableEq, Repr

/-- The model gives no meaning here. -/
inductive Refusal where
  /-- raised by exec's arm of an instruction not modelled yet. Safe. -/
  | notModelled (mnemonic : String)
  /-- raised by an operation that reads `DEPTH` while no depth is set: "All primitives require DEPTH in 16, 20, 24"
  (40_bitreader R130). Safe. -/
  | noDepth
  /-- raised by `GETBITS(n)` with `n` outside 1 to 32, never requested by any rule (40_bitreader R134), nor by a layout whose
  widths are in that range. Safe. -/
  | getbitsWidth (n : Nat)
  /-- raised by `PULLWORD` invoked by name when the residual buffer would pass 55 bits (10_state R22, R23). Safe. -/
  | residualFull
  /-- raised by `SrcReset` with no mark pending (20_memory R65, 93 U12: refuse). Safe. -/
  | noMark
  /-- raised by a host write of `CFG`, `PROBE_WINDOW` or `PROBE_LATE`, or a seek, while `BUSY = 1` (93 U11: refuse). Safe. -/
  | hostWhileBusy
  /-- raised by a host access to a register number the spec does not fix (10_state R45). Safe. -/
  | hostRegister (reg : Nat)
  /-- raised by a seek past the end of the stream, a position `POS` never takes (10_state R42). Safe. -/
  | seekOutside (pos : Nat)
  /-- raised by the recognition of a sample at another depth than `DEPTH`, and by a code whose bits do not fit its slot.
  Safe. -/
  | malformedUnit
deriving DecidableEq, Repr

/-! ### Reset -/

/-- The empty stream. -/
def Memory.empty : Memory := ⟨0, []⟩

/-- An AC3 record at reset (70_reset R321). -/
def Ac3Rec.reset : Ac3Rec where
  VALID := false
  EXT := false
  FIELDS := .replicate 64 0
  ADDBSIE := false
  ADDBSIL := 0

/-- Power-on reset (70_reset R320, R321); the parameters at the values 00_scope R7 gives (log 8, 31). -/
def State.reset : State where
  br := ⟨none, 0, 0, 0, false, 0, 0, 0⟩
  bi := ⟨0, 0, 0, 0, 0, 0⟩
  seq := ⟨.idle, false, false, 0, 0, 0⟩
  cfg := ⟨false, false, Config.probeWindowReset, Config.probeLateReset, 0⟩
  fr := ⟨0, 0, 0, 0, 0, 0, false, 0, 0, 0, 0⟩
  tc := ⟨0, 0, 0, 0, 0, 0, 0, 0, false, false, 0⟩
  ch := ⟨.replicate 8 0, .replicate 8 0, .replicate 8 0, .replicate 8 0, .replicate 8 0, .replicate 8 0,
    .replicate 8 0⟩
  pg := ⟨.replicate 8 0, .replicate 8 0⟩
  ac3m := .replicate 8 Ac3Rec.reset
  ac3x := .replicate 8 Ac3Rec.reset
  cont := ⟨false, 0, false, false⟩
  desc := .replicate 8 ⟨[], false, [], false⟩
  src := ⟨Memory.empty, 0, 0, false⟩
  ev := []
  port := []
  ret := .none
  lastErr := none
  pd := none
  par := defaultParams

end Sys2Proof.Machine
end

