-- ==== Sys2Proof/Machine/Ops.lean ====
section
/-! DEFINITION. The named operations over the state: field-group updates, the stream and the Sample Source calls
(20_memory), events and errors (60_exceptions), and the pseudocode type `Op` in which the rules are written
(00_scope R13). -/

namespace Sys2Proof.Machine

/-! ### One update per group of registers -/

def State.setBr (s : State) (x : BitReader) : State := { s with br := x }
def State.setBi (s : State) (x : BurstInfo) : State := { s with bi := x }
def State.setSeq (s : State) (x : Sequencer) : State := { s with seq := x }
def State.setCfg (s : State) (x : CfgRegs) : State := { s with cfg := x }
def State.setFr (s : State) (x : FrameRegs) : State := { s with fr := x }
def State.setTc (s : State) (x : TcRegs) : State := { s with tc := x }
def State.setCh (s : State) (x : ChanArrays) : State := { s with ch := x }
def State.setPg (s : State) (x : ProgArrays) : State := { s with pg := x }
def State.setAc3m (s : State) (x : Vector Ac3Rec 8) : State := { s with ac3m := x }
def State.setAc3x (s : State) (x : Vector Ac3Rec 8) : State := { s with ac3x := x }
def State.setCont (s : State) (x : Continuity) : State := { s with cont := x }
def State.setDesc (s : State) (x : Vector DescText 8) : State := { s with desc := x }
def State.setSrc (s : State) (x : Source) : State := { s with src := x }
def State.setEv (s : State) (x : List Event) : State := { s with ev := x }
def State.setPort (s : State) (x : List Request) : State := { s with port := x }
def State.setRet (s : State) (x : Ret) : State := { s with ret := x }
def State.setLastErr (s : State) (x : Option (ErrVal × SeqState)) : State := { s with lastErr := x }
def State.setPd (s : State) (x : Option Depth) : State := { s with pd := x }

/-- `A[i] <- v` for an eight-element array (00_scope R13). -/
def vset {α : Type} (a : Vector α 8) (i : Fin 8) (v : α) : Vector α 8 := a.set i.val v i.isLt

/-- The indices 0 to 7 of the frame arrays (10_state R35, R36). -/
def idx8 : List (Fin 8) := [0, 1, 2, 3, 4, 5, 6, 7]

/-- `for i in lo .. hi-1` (00_scope R13) over the eight indices. -/
def idxRange (lo hi : Nat) : List (Fin 8) := (idx8.take hi).drop lo

/-! ### The stream -/

/-- The byte listed at an address, 0 if none is (log 3). -/
def lookupByte (a : Nat) : List Host.Cell → Byte
  | [] => 0#8
  | (b, v) :: rest => if a = b then v else lookupByte a rest

/-- `MEM[a]` for `a` below the length (20_memory R60). -/
def Memory.byteAt (m : Memory) (a : Nat) : Byte := lookupByte a m.cells

/-- Bytes at `a, a+1, …`. -/
def Memory.bytesFrom (m : Memory) (a : Nat) : Nat → List Byte
  | 0 => []
  | n + 1 => m.byteAt a :: m.bytesFrom (a + 1) n

/-- `MemRead(a, n)`: `n` bytes from `a`, or EndOfData, which is `none` (20_memory R62). -/
def Memory.read (m : Memory) (a n : Nat) : Option (List Byte) :=
  if a + n ≤ m.len then some (m.bytesFrom a n) else none

/-- Put a byte into a rising list of nonzero bytes; a zero takes the entry out. -/
def insertCell (a : Nat) (v : Byte) : List Host.Cell → List Host.Cell
  | [] => if v = 0#8 then [] else [(a, v)]
  | (b, w) :: rest =>
    if a < b then (if v = 0#8 then (b, w) :: rest else (a, v) :: (b, w) :: rest)
    else if a = b then (if v = 0#8 then rest else (a, v) :: rest)
    else (b, w) :: insertCell a v rest

/-- Give the stream a byte, lengthening it to hold it. DEFD never does this (00_scope R13); it stands for the loading
of the input from outside (log 2). -/
def Memory.write (m : Memory) (a : Nat) (v : Byte) : Memory := ⟨max m.len (a + 1), insertCell a v m.cells⟩

/-- Give the stream bytes at `a, a+1, …` (log 2). -/
def Memory.writeBytes (m : Memory) (a : Nat) : List Byte → Memory
  | [] => m
  | b :: bs => (m.write a b).writeBytes (a + 1) bs

/-- Addresses strictly rising, at least `lo` and below `len`, and no zero byte listed. -/
def cellsWf (len : Nat) : Nat → List Host.Cell → Bool
  | _, [] => true
  | lo, (a, v) :: rest => decide (lo ≤ a) && decide (a < len) && decide (v ≠ 0#8) && cellsWf len (a + 1) rest

/-- The canonical form of the stream. -/
def Memory.wf (m : Memory) : Bool := cellsWf m.len 0 m.cells

/-- A word from its bytes, the first byte least significant (20_memory R63, R69). -/
def wordOfBytes : List Byte → Word
  | [] => 0#32
  | b :: bs => b.setWidth 32 ||| (wordOfBytes bs <<< 8)

/-- `SAMPLE_BYTES` (00_scope R7, 10_state R31). -/
def State.sampleBytes (s : State) : Nat := if s.cfg.PACK3 then 3 else 4

/-- `STREAMS` (00_scope R7, 10_state R31). -/
def State.streams (s : State) : Nat := if s.cfg.STREAMS2 then 2 else 1

/-- The first position at or after `a`, within `n` bytes, whose byte is not 0; `a + n` if there is none. -/
def Memory.skipZeros (m : Memory) (a : Nat) : Nat → Nat
  | 0 => a
  | n + 1 => if m.byteAt a = 0#8 then m.skipZeros (a + 1) n else a

/-- The position `SrcAlign` moves to (20_memory R66). -/
def Source.alignPos (x : Source) : Nat :=
  if x.POS ≤ x.MEM.len then x.MEM.skipZeros x.POS (x.MEM.len - x.POS) else x.MEM.len

/-! ### Errors and events -/

/-- The kind of an error (60_exceptions R282). -/
def errKind : ErrVal → ErrKind
  | .badPreamble _ | .badPreamble2 _ | .badSync _ | .notDolbyE _ | .oddLength _ | .noPreamble _ => .format
  | .pcfgReserved _ | .pcfgIllegal _ | .pcfgRange _ | .frcReserved _ => .configuration
  | .midField | .atHeader _ | .inProbe _ | .padding => .exhausted
  | .negRemainder | .segOverrun _ => .internal

/-- `ERRK` codes (60_exceptions R281). -/
def kindCode : ErrKind → BitVec 3
  | .format => 1
  | .configuration => 2
  | .integrity => 3
  | .exhausted => 4
  | .internal => 5

/-- `ERRS` sub-codes (60_exceptions R282). -/
def errSub : ErrVal → BitVec 4
  | .badPreamble _ => 1
  | .badPreamble2 _ => 2
  | .badSync _ => 3
  | .notDolbyE _ => 4
  | .oddLength _ => 5
  | .noPreamble _ => 6
  | .pcfgReserved _ => 1
  | .pcfgIllegal _ => 2
  | .pcfgRange _ => 3
  | .frcReserved _ => 4
  | .midField => 1
  | .atHeader _ => 2
  | .inProbe _ => 3
  | .padding => 4
  | .negRemainder => 1
  | .segOverrun _ => 2

/-- Event codes (60_exceptions R291). -/
def eventCode : Event → Nat
  | .crc _ _ _ => 1
  | .biDtd _ => 2
  | .biMode _ => 3
  | .biDtype _ => 4
  | .probeLate _ => 5
  | .segOverrun _ _ => 6
  | .subsegLen _ _ _ => 7
  | .ac3Reserved _ _ _ => 8
  | .tcDiscont _ _ => 9
  | .dropOn => 10
  | .dropOff => 11
  | .tcInvalid => 12
  | .desc _ _ => 13

/-- Level W, an IntegrityWarning, or level I (60_exceptions R289, R291). -/
def eventIsWarning (e : Event) : Bool := eventCode e ≤ 9

/-- Taking an error (60_exceptions R283): what `raise K.S(info)` writes once the operation in progress has stopped.
Every earlier write stands (R284). There is no return: the next command clears the latch (R285, 41_burst R160). -/
def State.latch (s : State) (e : ErrVal) : State :=
  (s.setSeq
    { ST := .idle, BUSY := false, DONE := false, ERRK := kindCode (errKind e), ERRS := errSub e,
      ERRST := s.seq.ST.code }).setLastErr (some (e, s.seq.ST))

/-! ### The pseudocode type -/

/-- How an operation can end early: an error that is taken, or one of the model's stops. -/
inductive Abort where
  | raised (e : ErrVal)
  | refused (r : Refusal)
  | faulted (f : Fault)
deriving DecidableEq, Repr

/-- An operation of the rules: it reads and writes the state, and ends with a value or early. What it wrote before an
early end stands (60_exceptions R284). -/
abbrev Op (α : Type) : Type := EStateM Abort State α

/-- The outcomes of exec. -/
abbrev Result : Type := Host.Outcome State Fault Refusal

/-- Perform an operation as a whole; an error it raises is taken (60_exceptions R283). -/
def runOp (x : Op Unit) (s : State) : Result :=
  match x s with
  | .ok _ t => .next t
  | .error (.raised e) t => .next (t.latch e)
  | .error (.refused r) _ => .refused r
  | .error (.faulted f) _ => .fault f

/-- `raise K.S(info)` inside a rule (00_scope R13). -/
def raiseErr {α : Type} (e : ErrVal) : Op α := fun s => .error (.raised e) s

/-- One of the model's own stops. -/
def refuse {α : Type} (r : Refusal) : Op α := fun s => .error (.refused r) s

/-- Apply an update. -/
def update (f : State → State) : Op Unit := fun s => .ok () (f s)

/-- `if c: x`. -/
def whenOp (c : Bool) (x : Op Unit) : Op Unit := if c then x else pure ()

/-- `for a in as: f a`. -/
def forEach {α : Type} (f : α → Op Unit) : List α → Op Unit
  | [] => pure ()
  | a :: as => do
    f a
    forEach f as

/-- `for i in 1 .. n: x`. -/
def repeatOp (x : Op Unit) : Nat → Op Unit
  | 0 => pure ()
  | n + 1 => do
    x
    repeatOp x n

/-- The `try` of 41_burst R166: a FormatError is caught and answered `false`, everything else passes. -/
def attempt (x : Op Unit) : Op Bool := fun s =>
  match x s with
  | .ok _ t => .ok true t
  | .error (.raised e) t => if errKind e = .format then .ok false t else .error (.raised e) t
  | .error a t => .error a t

/-- `emit E(args)` (60_exceptions R290). -/
def emitEvent (e : Event) : Op Unit := update fun s => s.setEv (s.ev ++ [e])

def updBr (f : BitReader → BitReader) : Op Unit := update fun s => s.setBr (f s.br)
def updSeq (f : Sequencer → Sequencer) : Op Unit := update fun s => s.setSeq (f s.seq)
def updFr (f : FrameRegs → FrameRegs) : Op Unit := update fun s => s.setFr (f s.fr)
def updTc (f : TcRegs → TcRegs) : Op Unit := update fun s => s.setTc (f s.tc)
def updCh (f : ChanArrays → ChanArrays) : Op Unit := update fun s => s.setCh (f s.ch)
def updPg (f : ProgArrays → ProgArrays) : Op Unit := update fun s => s.setPg (f s.pg)
def updSrc (f : Source → Source) : Op Unit := update fun s => s.setSrc (f s.src)

/-- The active depth; operations that read `DEPTH` need one (40_bitreader R130; log 12). -/
def needDepth : Op Depth := fun s =>
  match s.br.DEPTH with
  | some d => .ok d s
  | none => .error (.refused .noDepth) s

/-- `ST <- s` while a command runs, `BUSY` being 1 exactly then (10_state R27, R30; log 27). -/
def enter (st : SeqState) : Op Unit := updSeq fun q => { q with ST := st, BUSY := true }

/-! ### The Sample Source calls -/

/-- `SrcReadWord()` (20_memory R63); `none` is EndOfData, which changes nothing. -/
def srcReadWordOp : Op (Option Word) := fun s =>
  match s.src.MEM.read s.src.POS s.sampleBytes with
  | some b => .ok (some (wordOfBytes b)) (s.setSrc { s.src with POS := s.src.POS + s.sampleBytes })
  | none => .ok none s

/-- `SrcMark()` (20_memory R64). -/
def srcMarkOp : Op Unit := updSrc fun x => { x with MARKPOS := x.POS, MARK_V := true }

/-- `SrcReset()` (20_memory R65); with no mark pending it is outside the spec (93 U12; log 15). -/
def srcResetOp : Op Unit := fun s =>
  if s.src.MARK_V then .ok () (s.setSrc { s.src with POS := s.src.MARKPOS }) else .error (.refused .noMark) s

/-- `SrcAlign()` (20_memory R66). -/
def srcAlignOp : Op Unit := updSrc fun x => { x with POS := x.alignPos }

end Sys2Proof.Machine
end

