-- ==== Sys2Proof/Machine/Flags.lean ====
section
/-! DEFINITION. Flag and remainder computations: the CRC register (40_bitreader R131), `LFR`, `TCVALID`, `KEYP`
(10_state R34), and the words the host reads from `STATUS` and `CFG` (10_state R30, R31). -/

namespace Sys2Proof.Machine

/-- The generator `G = x^16 + x^15 + x^2 + 1` (40_bitreader R131). -/
def crcPoly : BitVec 40 := 0x18005#40

/-- The long division of 40_bitreader R131, from index `k + 15` down to 16. -/
def crcReduce : Nat → BitVec 40 → BitVec 40
  | 0, t => t
  | k + 1, t => crcReduce k (if t.getLsbD (k + 16) then t ^^^ (crcPoly <<< k) else t)

/-- `CRCFOLD(v)` on the register alone (40_bitreader R131): `(CRC * x^DEPTH + v) mod G`. -/
def crcFold (d : Depth) (crc : BitVec 16) (v : Sample) : BitVec 16 :=
  (crcReduce d.bits ((crc.setWidth 40 <<< d.bits) ||| v.setWidth 40)).setWidth 16

/-- `CRCFOLD(v)` as an operation (40_bitreader R131). -/
def crcFoldOp (v : Sample) : Op Unit := do
  let d ← needDepth
  updBr fun b => { b with CRC := crcFold d b.CRC v }

/-- `LFR` (42_frame_header R192, R194): frame-rate codes 1 to 5. -/
def lfrOf (frc : BitVec 4) : Bool := 1#4 ≤ frc && frc ≤ 5#4

/-- Reserved frame-rate codes (42_frame_header R192): 0 and above 8. -/
def frcIsReserved (frc : BitVec 4) : Bool := frc == 0#4 || 8#4 < frc

/-- The invalid-timecode sentinel (42_frame_header R195): hours tens 3 and hours units 15. -/
def TcRegs.isSentinel (t : TcRegs) : Bool := t.TC_HT == 3#2 && t.TC_HU == 15#4

/-- `STATUS` as one word (10_state R30). -/
def Sequencer.statusWord (q : Sequencer) : BitVec 32 :=
  0#19 ++ q.ERRST ++ q.ERRS ++ q.ERRK ++ BitVec.ofBool q.DONE ++ BitVec.ofBool q.BUSY

/-- `CFG` as one word (10_state R31). -/
def CfgRegs.cfgWord (c : CfgRegs) : BitVec 32 := 0#30 ++ BitVec.ofBool c.PACK3 ++ BitVec.ofBool c.STREAMS2

end Sys2Proof.Machine
end

