-- ==== Sys2Proof/Machine/Operands.lean ====
section
/-! DEFINITION. How DEFD takes its operands from the stream: words into the residual buffer (40_bitreader R133), fields
of 1 to 32 bits (R134), skipped bits (R135), and the fields of the layouts that 42_frame_header R195 and 43_subsegments
R224 read, each into its place. -/

namespace Sys2Proof

/-- The place of a field in a record (10_state R37): the fields of 43_subsegments R226 and R227 in order, then the
further ones. -/
def Ac3Field.index : Ac3Field → Fin 64
  | .datarate => 0
  | .bsmod => 1
  | .acmod => 2
  | .cmixlev => 3
  | .surmixlev => 4
  | .dsurmod => 5
  | .lfeon => 6
  | .dialnorm => 7
  | .langcode => 8
  | .langcod => 9
  | .audprodie => 10
  | .mixlevel => 11
  | .roomtyp => 12
  | .copyrightb => 13
  | .origbs => 14
  | .dmixmod => 15
  | .ltrtcmixlev => 16
  | .ltrtsurmixlev => 17
  | .lorocmixlev => 18
  | .lorosurmixlev => 19
  | .dsurexmod => 20
  | .dheadphonmod => 21
  | .adconvtyp => 22
  | .hpfon => 23
  | .lpfon => 24
  | .atton => 25
  | .compre => 26
  | .compr1 => 27
  | .dynrnge => 28
  | .dynrng1 => 29
  | .dynrng2 => 30
  | .dynrng3 => 31
  | .dynrng4 => 32
  | .further k => ⟨k.val + 33, by omega⟩

/-- The entries of a layout with their values, in the layout's order. -/
def Layout.withValues {φ : Type} (l : Layout φ) (vals : List Nat) : List ((φ × Nat) × Nat) := l.zip vals

end Sys2Proof

namespace Sys2Proof.Machine

/-- The sample of a raw word: its top `DEPTH` bits, exclusive-or the key's low `DEPTH` bits (40_bitreader R133). -/
def sampleOf (d : Depth) (key : Sample) (w : Word) : Sample :=
  (w >>> (32 - d.bits)).setWidth 24 ^^^ (key &&& BitVec.ofNat 24 (2 ^ d.bits - 1))

/-- What `PULLWORD` writes for a word it read (40_bitreader R133). -/
def BitReader.pull (b : BitReader) (d : Depth) (sampleBytes : Nat) (w : Word) : BitReader :=
  { b with
    CRC := crcFold d b.CRC (sampleOf d b.KEY w)
    RES := (b.RES <<< d.bits) ||| (sampleOf d b.KEY w).setWidth 64
    RESCNT := b.RESCNT + d.bits
    BYTECNT := b.BYTECNT + sampleBytes }

/-- The residual buffer holds at most 55 bits (10_state R22, R23); `GETBITS` never asks for more (log 14). -/
def needRoom (d : Depth) : Op Unit := fun s =>
  if s.br.RESCNT + d.bits ≤ 55 then .ok () s else .error (.refused .residualFull) s

/-- `PULLWORD()` (40_bitreader R133). -/
def pullwordOp : Op Unit := do
  let d ← needDepth
  needRoom d
  let w ← srcReadWordOp
  match w with
  | none => raiseErr .midField
  | some w => update fun s => s.setBr (s.br.pull d s.sampleBytes w)

/-- `if RESCNT < n: PULLWORD()`. -/
def pullIfShort (n : Nat) : Op Unit := fun s => if s.br.RESCNT < n then pullwordOp s else .ok () s

/-- Deliver `n` bits that are in the buffer (40_bitreader R134, after its loop). -/
def takeBits (n : Nat) : Op (BitVec n) := fun s =>
  .ok (BitVec.ofNat n (s.br.RES.toNat >>> (s.br.RESCNT - n)))
    (s.setBr { s.br with
      RES := BitVec.ofNat 64 (s.br.RES.toNat % 2 ^ (s.br.RESCNT - n))
      RESCNT := s.br.RESCNT - n
      BITCNT := s.br.BITCNT + n })

/-- `GETBITS(n)` (40_bitreader R134). Its loop pulls at most twice: a word brings at least 16 bits and `n` is at most
32. -/
def getbitsOp (n : Nat) : Op (BitVec n) :=
  if 1 ≤ n ∧ n ≤ 32 then do
    let _ ← needDepth
    pullIfShort n
    pullIfShort n
    takeBits n
  else refuse (.getbitsWidth n)

/-- `GETBITS(n)` with the result discarded. -/
def dropBits (n : Nat) : Op Unit := do
  let _ ← getbitsOp n
  pure ()

/-- `SKIPBITS(k)` (40_bitreader R135): `k div 32` reads of 32 bits and one of `k mod 32` if that is not 0
(43_subsegments R223). -/
def skipbitsOp (k : Nat) : Op Unit := do
  repeatOp (dropBits 32) (k / 32)
  whenOp (k % 32 != 0) (dropBits (k % 32))

/-- A field of `DEPTH` bits, as a sample. -/
def getSample : Op Sample := do
  let d ← needDepth
  let v ← getbitsOp d.bits
  pure (v.setWidth 24)

/-- Read the fields of a layout in order, each into its place as soon as it is read; an entry is a field with its
width. -/
def readLayout {φ : Type} (store : φ × Nat → Nat → Op Unit) : Layout φ → Op Unit
  | [] => pure ()
  | e :: rest => do
    let v ← getbitsOp e.2
    store e v.toNat
    readLayout store rest

/-- A value in a register of a timecode field; unused fields go nowhere. A register takes the low bits of its width
(10_state R33), which is all of them under the layouts of `Params.Ok` (log 11). -/
def TcRegs.put (t : TcRegs) (f : TcField) (v : Nat) : TcRegs :=
  match f with
  | .unused => t
  | .ht => { t with TC_HT := BitVec.ofNat 2 v }
  | .hu => { t with TC_HU := BitVec.ofNat 4 v }
  | .mt => { t with TC_MT := BitVec.ofNat 3 v }
  | .mu => { t with TC_MU := BitVec.ofNat 4 v }
  | .st => { t with TC_ST := BitVec.ofNat 3 v }
  | .su => { t with TC_SU := BitVec.ofNat 4 v }
  | .df => { t with TC_DF := v.testBit 0 }
  | .ft => { t with TC_FT := BitVec.ofNat 2 v }
  | .fu => { t with TC_FU := BitVec.ofNat 4 v }

/-- `register[name] <- v` of 42_frame_header R195: a value of the entry's width. -/
def TcRegs.store (t : TcRegs) (e : TcField × Nat) (v : Nat) : TcRegs := t.put e.1 (v % 2 ^ e.2)

/-- A field of a record. -/
def Ac3Rec.get (r : Ac3Rec) (f : Ac3Field) : BitVec 32 := r.FIELDS[f.index]

/-- `F[p].name <- v` of 43_subsegments R224: a value of the entry's width (10_state R37). -/
def Ac3Rec.store (r : Ac3Rec) (e : Ac3Field × Nat) (v : Nat) : Ac3Rec :=
  { r with FIELDS := r.FIELDS.set e.1.index.val (BitVec.ofNat 32 (v % 2 ^ e.2)) e.1.index.isLt }

/-- Every field of a timecode block, in order (42_frame_header R195). -/
def TcRegs.storeAll (t : TcRegs) (fields : List ((TcField × Nat) × Nat)) : TcRegs :=
  fields.foldl (fun t x => t.store x.1 x.2) t

/-- Every field of an AC3 block, in order (43_subsegments R224). -/
def Ac3Rec.storeAll (r : Ac3Rec) (fields : List ((Ac3Field × Nat) × Nat)) : Ac3Rec :=
  fields.foldl (fun r x => r.store x.1 x.2) r

end Sys2Proof.Machine
end

