-- ==== Sys2Proof/Machine/Source.lean ====
section
/-! DEFINITION. The Sample Source calls, RAISE and EMIT as instructions (20_memory R62 to R66, 60_exceptions R283,
R290). A value a call hands back goes to `ret` (log 5). -/

namespace Sys2Proof.Machine

/-- Hand a value back to whoever invoked the operation (log 5). -/
def giveBack (r : Ret) : Op Unit := update fun s => s.setRet r

/-- `MemRead(a, n)` (20_memory R62). -/
def execMemRead (a n : Nat) (s : State) : Result :=
  match s.src.MEM.read a n with
  | some b => .next (s.setRet (.bytes b))
  | none => .next (s.setRet .endOfData)

/-- `SrcReadWord()` (20_memory R63). -/
def execSrcReadWord (s : State) : Result :=
  runOp (do
    let w ← srcReadWordOp
    match w with
    | some w => giveBack (.num w.toNat)
    | none => giveBack .endOfData) s

/-- `SrcMark()` (20_memory R64). -/
def execSrcMark (s : State) : Result := runOp srcMarkOp s

/-- `SrcReset()` (20_memory R65). -/
def execSrcReset (s : State) : Result := runOp srcResetOp s

/-- `SrcAlign()` (20_memory R66). -/
def execSrcAlign (s : State) : Result := runOp srcAlignOp s

/-- `raise K.S(info)` (60_exceptions R283). -/
def execRaise (e : ErrVal) (s : State) : Result := runOp (raiseErr e) s

/-- `emit E(args)` (60_exceptions R290). -/
def execEmit (e : Event) (s : State) : Result := runOp (emitEvent e) s

end Sys2Proof.Machine
end

