-- ==== Sys2Proof/Machine/BitReader.lean ====
section
/-! DEFINITION. The bit-reader primitives (40_bitreader) and the sample patterns they consume: key words, CRC
codewords, audio samples (30_encoding R98, R107, R109). -/

namespace Sys2Proof.Machine

/-- The registers `PAYLOAD_INIT` clears in the bit reader (40_bitreader R132); `DEPTH` stays. -/
def BitReader.payloadInit (b : BitReader) : BitReader :=
  { DEPTH := b.DEPTH, RES := 0, RESCNT := 0, KEY := 0, KEYP := false, CRC := 0, BITCNT := 0, BYTECNT := 0 }

/-- `VALID <- 0` in every record of a file (40_bitreader R132). -/
def clearValid (recs : Vector Ac3Rec 8) : Vector Ac3Rec 8 := recs.map fun r => { r with VALID := false }

/-- `PAYLOAD_INIT()` (40_bitreader R132). -/
def payloadInitOp : Op Unit :=
  update fun s =>
    (((s.setBr s.br.payloadInit).setFr { s.fr with EXTSZ := 0, NSUBM := 0, NSUBX := 0 }).setAc3m
      (clearValid s.ac3m)).setAc3x (clearValid s.ac3x)

/-- The end of `REGION_START` (40_bitreader R136): the bit counter and, by policy, the CRC register are cleared. -/
def beginRegion : Op Unit :=
  update fun s =>
    s.setBr { s.br with BITCNT := 0, CRC := if s.par.crcClearAtRegionStart then 0 else s.br.CRC }

/-- `KEY <- k` (40_bitreader R136). -/
def setKey (k : Sample) : Op Unit := updBr fun b => { b with KEY := k }

/-- By policy the old key is removed before the key word is pulled (40_bitreader R136, D10). -/
def dropKey : Op Unit := do
  let s ← get
  whenOp s.par.keyClearBeforeRead (setKey 0)

/-- The key word of a region (40_bitreader R136). -/
def readKey : Op Unit := do
  dropKey
  let k ← getSample
  setKey k

/-- Whether `REGION_START(first)` reads a key (40_bitreader R136, D12). -/
def State.keyComes (s : State) (first : Bool) : Bool := s.br.KEYP && (first || s.par.keyPerRegion)

/-- `REGION_START(first)` (40_bitreader R136). -/
def regionStartOp (first : Bool) : Op Unit := do
  let s ← get
  whenOp (s.keyComes first) readKey
  beginRegion

/-- `PADSEG(size, seg)` (40_bitreader R137). -/
def padsegOp (size : Nat) (r : Region) : Op Unit := do
  let d ← needDepth
  let s ← get
  if s.br.BITCNT ≤ size * d.bits then skipbitsOp (size * d.bits - s.br.BITCNT)
  else if s.par.segOverrunFaults then raiseErr (.segOverrun r)
  else emitEvent (.segOverrun r (s.br.BITCNT - size * d.bits))

/-- The end of `CRCCHECK(seg)` once the codeword has been read (40_bitreader R138). -/
def closeRegion (r : Region) (c : Sample) : Op Unit := do
  let s ← get
  whenOp (s.br.CRC != 0) (emitEvent (.crc r s.br.CRC c))
  updBr fun b => { b with CRC := if s.par.crcClearAfterCheck then 0 else b.CRC }

/-- `CRCCHECK(seg)` (40_bitreader R138). -/
def crccheckOp (r : Region) : Op Unit := do
  let c ← getSample
  closeRegion r c

/-! ### Instructions -/

/-- CRCFOLD (40_bitreader R131). -/
def execCrcfold (v : Sample) (s : State) : Result := runOp (crcFoldOp v) s

/-- PAYLOAD_INIT (40_bitreader R132). -/
def execPayloadInit (s : State) : Result := runOp payloadInitOp s

/-- PULLWORD (40_bitreader R133). -/
def execPullword (s : State) : Result := runOp pullwordOp s

/-- GETBITS (40_bitreader R134); the value goes to `ret`. -/
def execGetbits (n : Nat) (s : State) : Result :=
  runOp (do
    let v ← getbitsOp n
    giveBack (.num v.toNat)) s

/-- SKIPBITS (40_bitreader R135). -/
def execSkipbits (k : Nat) (s : State) : Result := runOp (skipbitsOp k) s

/-- REGION_START (40_bitreader R136). -/
def execRegionStart (first : Bool) (s : State) : Result := runOp (regionStartOp first) s

/-- PADSEG (40_bitreader R137). -/
def execPadseg (size : BitVec 10) (r : Region) (s : State) : Result := runOp (padsegOp size.toNat r) s

/-- CRCCHECK (40_bitreader R138). -/
def execCrccheck (r : Region) (s : State) : Result := runOp (crccheckOp r) s

/-- A key word that has been read takes effect (40_bitreader R136). -/
def keyWord (k : Sample) : Op Unit := do
  setKey k
  beginRegion

/-- KEYW16 (40_bitreader R136, 30_encoding R98). -/
def execKeyw16 (k : BitVec 16) (s : State) : Result := runOp (keyWord (k.setWidth 24)) s

/-- KEYW20 (40_bitreader R136, 30_encoding R98). -/
def execKeyw20 (k : BitVec 20) (s : State) : Result := runOp (keyWord (k.setWidth 24)) s

/-- KEYW24 (40_bitreader R136, 30_encoding R98). -/
def execKeyw24 (k : BitVec 24) (s : State) : Result := runOp (keyWord k) s

/-- CRCW16 (40_bitreader R138, 30_encoding R109). -/
def execCrcw16 (r : Region) (c : BitVec 16) (s : State) : Result := runOp (closeRegion r (c.setWidth 24)) s

/-- CRCW20 (40_bitreader R138, 30_encoding R109). -/
def execCrcw20 (r : Region) (c : BitVec 20) (s : State) : Result := runOp (closeRegion r (c.setWidth 24)) s

/-- CRCW24 (40_bitreader R138, 30_encoding R109). -/
def execCrcw24 (r : Region) (c : BitVec 24) (s : State) : Result := runOp (closeRegion r c) s

/-- AUDIOSAMPLE16 (44_audio_meter R250): pulling it folded and counted it; its value is dropped. -/
def execAudiosample16 (_a : BitVec 16) (s : State) : Result := .next s

/-- AUDIOSAMPLE20 (44_audio_meter R250). -/
def execAudiosample20 (_a : BitVec 20) (s : State) : Result := .next s

/-- AUDIOSAMPLE24 (44_audio_meter R250). -/
def execAudiosample24 (_a : BitVec 24) (s : State) : Result := .next s

end Sys2Proof.Machine
end

