-- ==== Sys2Proof/Machine/Audio.lean ====
section
/-! DEFINITION. Audio skipping, the meter segment and frame completion (44_audio_meter). -/

namespace Sys2Proof.Machine

/-! ### Audio -/

/-- One audio sample, value dropped (44_audio_meter R250). -/
def dropSample : Op Unit := do
  let _ ← getSample
  pure ()

/-- The samples of one channel (44_audio_meter R250). -/
def skipChannel (c : Fin 8) : Op Unit := do
  let s ← get
  repeatOp dropSample ((s.ch.CHSZ[c]).toNat)

/-- `AUDIOHALF(lo, hi, seg)` (44_audio_meter R250). -/
def audiohalfOp (lo hi : Nat) (r : Region) : Op Unit := do
  regionStartOp false
  forEach skipChannel (idxRange lo hi)
  crccheckOp r

/-- Both halves of an audio segment, split at `NCH div 2` (44_audio_meter R251, R252). -/
def audioHalves (r0 r1 : Region) : Op Unit := do
  let s ← get
  audiohalfOp 0 (s.fr.NCH.toNat / 2) r0
  audiohalfOp (s.fr.NCH.toNat / 2) s.fr.NCH.toNat r1

/-- `AUDIO` (44_audio_meter R251). -/
def audioOp : Op Unit := audioHalves .audio0 .audio1

/-- `AUDIOEXT` (44_audio_meter R252): the same channel sizes as the main segment. -/
def audioextOp : Op Unit := audioHalves .extAudio0 .extAudio1

/-! ### Meter -/

def setPeak (c : Fin 8) (v : BitVec 10) : Op Unit := updCh fun a => { a with PEAK := vset a.PEAK c v }
def setRms (c : Fin 8) (v : BitVec 10) : Op Unit := updCh fun a => { a with RMS := vset a.RMS c v }

/-- One peak (44_audio_meter R253). -/
def readPeak (c : Fin 8) : Op Unit := do
  let v ← getbitsOp 10
  setPeak c v

/-- One RMS value (44_audio_meter R253). -/
def readRms (c : Fin 8) : Op Unit := do
  let v ← getbitsOp 10
  setRms c v

/-- `METER` (44_audio_meter R253). -/
def meterOp : Op Unit := do
  regionStartOp false
  let s ← get
  forEach readPeak (idxRange 0 s.fr.NCH.toNat)
  forEach readRms (idxRange 0 s.fr.NCH.toNat)
  padsegOp s.fr.METSZ.toNat .meter
  crccheckOp .meter

/-! ### Completion -/

/-- One raw word of padding (44_audio_meter R258). -/
def skipPadding : Op Unit := do
  let w ← srcReadWordOp
  match w with
  | some _ => pure ()
  | none => raiseErr .padding

/-- `EXP`, the declared payload length in bytes (44_audio_meter R258). -/
def State.expectedBytes (s : State) (d : Depth) : Nat := s.bi.BI_BITLEN.toNat / d.bits * s.sampleBytes

/-- `COMPLETE` (44_audio_meter R258). -/
def completeOp : Op Unit := do
  let d ← needDepth
  let s ← get
  if s.expectedBytes d < s.br.BYTECNT then raiseErr .negRemainder
  else do
    updBr fun b => { b with RES := 0, RESCNT := 0 }
    repeatOp skipPadding ((s.expectedBytes d - s.br.BYTECNT) / s.sampleBytes)

/-! ### Instructions -/

/-- PEAK (44_audio_meter R253, 30_encoding R108). -/
def execPeak (c : Fin 8) (v : BitVec 10) (s : State) : Result := runOp (setPeak c v) s

/-- RMS (44_audio_meter R253, 30_encoding R108). -/
def execRms (c : Fin 8) (v : BitVec 10) (s : State) : Result := runOp (setRms c v) s

/-- AUDIOHALF (44_audio_meter R250). -/
def execAudiohalf (lo hi : Nat) (r : Region) (s : State) : Result := runOp (audiohalfOp lo hi r) s

end Sys2Proof.Machine
end

