-- ==== Sys2Proof/Machine/Burst.lean ====
section
/-! DEFINITION. The burst layer (41_burst R166 to R168): the preamble, the burst-info words and the probe scan. -/

namespace Sys2Proof.Machine

/-- One header word (41_burst R167, R168). -/
def headerWord (i : BitVec 2) : Op Word := do
  let w ← srcReadWordOp
  match w with
  | some w => pure w
  | none => raiseErr (.atHeader i)

/-- Preamble word 1 selects `d` (41_burst R167). -/
def selectDepth (d : Depth) : Op Unit := update fun s => s.setPd (some d)

/-- Preamble word 2 `w2`: it must be the companion of the depth word 1 selected, and then sets `DEPTH`
(41_burst R167). -/
def confirmDepth (w2 : Word) : Op Unit := do
  let s ← get
  match s.pd with
  | some d =>
    if w2 = d.preamble2 then updBr fun b => { b with DEPTH := some d }
    else raiseErr (.badPreamble2 w2)
  | none => raiseErr (.badPreamble2 w2)

/-- `PREAMBLE` (41_burst R167). -/
def preambleOp : Op Unit := do
  let w1 ← headerWord 0
  match preamble1Depth w1 with
  | some d => do
    selectDepth d
    let w2 ← headerWord 1
    confirmDepth w2
  | none => raiseErr (.badPreamble w1)

/-- The fields of burst-info word 1 and their warnings (41_burst R168). -/
def burstWord1 (streamNo : BitVec 3) (dtd : BitVec 5) (errf : BitVec 1) (mode : BitVec 2) (dtype : BitVec 5) :
    Op Unit := do
  update fun s =>
    s.setBi { s.bi with BI_STREAMNO := streamNo, BI_DTD := dtd, BI_ERRF := errf, BI_MODE := mode, BI_DTYPE := dtype }
  whenOp (dtd != 0) (emitEvent (.biDtd dtd))
  whenOp (mode != 1) (emitEvent (.biMode mode))
  whenOp (dtype != 28) (emitEvent (.biDtype dtype))

/-- The field of burst-info word 2 (41_burst R168). -/
def burstWord2 (len : BitVec 20) : Op Unit := update fun s => s.setBi { s.bi with BI_BITLEN := len }

/-- `BURSTINFO` (41_burst R168): both words are read before any register is written. -/
def burstinfoOp : Op Unit := do
  let a ← headerWord 2
  let b ← headerWord 3
  burstWord2 (slice b.toNat 12 20)
  burstWord1 (slice a.toNat 29 3) (slice a.toNat 24 5) (slice a.toNat 23 1) (slice a.toNat 21 2) (slice a.toNat 16 5)

/-- A match of the probe (41_burst R166). -/
def probeFound (off : Nat) : Op Unit := do
  update fun s => s.setCfg { s.cfg with PROBE_OFF := BitVec.ofNat 32 off }
  let s ← get
  whenOp (s.cfg.PROBE_LATE.toNat < off) (emitEvent (.probeLate off))

/-- One word of the step past a failed candidate (41_burst R166). -/
def stepPast (off : Nat) : Op Unit := do
  let x ← srcReadWordOp
  match x with
  | some _ => pure ()
  | none => raiseErr (.inProbe off)

/-- The try of one nonzero candidate: back to it, `PREAMBLE`, back to it again (41_burst R166). -/
def tryCandidate : Op Bool := do
  srcResetOp
  let ok ← attempt preambleOp
  srcResetOp
  pure ok

/-- The loop of `PROBESCAN` (41_burst R166), `off` being the internal counter `OFF`. Each turn that does not end takes at
least one word, so the rest of the stream bounds the turns (log 24). -/
def probeFrom : Nat → Nat → Op Unit
  | 0, _ => fun s => .error (.faulted .loopFuel) s
  | fuel + 1, off => do
    let s ← get
    if s.cfg.PROBE_WINDOW.toNat ≤ off then raiseErr (.noPreamble off)
    else do
      srcMarkOp
      let w ← srcReadWordOp
      match w with
      | none => raiseErr (.inProbe off)
      | some w =>
        if w = 0 then probeFrom fuel (off + s.sampleBytes)
        else do
          let ok ← tryCandidate
          if ok then probeFound off
          else do
            repeatOp (stepPast off) s.streams
            probeFrom fuel (off + s.streams * s.sampleBytes)

/-- The fuel of a probe: more than the words left. -/
def State.probeFuel (s : State) : Nat := s.src.MEM.len - s.src.POS + 1

/-- `PROBESCAN` (41_burst R166). -/
def probescanOp : Op Unit := do
  let s ← get
  probeFrom s.probeFuel 0

/-! ### Instructions -/

/-- PA16 (41_burst R167, 30_encoding R93). -/
def execPa16 (s : State) : Result := runOp (selectDepth .d16) s

/-- PA20 (41_burst R167, 30_encoding R93). -/
def execPa20 (s : State) : Result := runOp (selectDepth .d20) s

/-- PA24 (41_burst R167, 30_encoding R93). -/
def execPa24 (s : State) : Result := runOp (selectDepth .d24) s

/-- PB16 (41_burst R167, 30_encoding R94). -/
def execPb16 (s : State) : Result := runOp (confirmDepth Depth.d16.preamble2) s

/-- PB20 (41_burst R167, 30_encoding R94). -/
def execPb20 (s : State) : Result := runOp (confirmDepth Depth.d20.preamble2) s

/-- PB24 (41_burst R167, 30_encoding R94). -/
def execPb24 (s : State) : Result := runOp (confirmDepth Depth.d24.preamble2) s

/-- BI1 (41_burst R168, 30_encoding R95); the reserved bits are neither stored nor checked. -/
def execBi1 (streamNo : BitVec 3) (dtd : BitVec 5) (errf : BitVec 1) (mode : BitVec 2) (dtype : BitVec 5)
    (s : State) : Result :=
  runOp (burstWord1 streamNo dtd errf mode dtype) s

/-- BI2 (41_burst R168, 30_encoding R96); the reserved bits are neither stored nor checked. -/
def execBi2 (len : BitVec 20) (s : State) : Result := runOp (burstWord2 len) s

end Sys2Proof.Machine
end

