-- ==== Sys2Proof/Machine/ProgConfig.lean ====
section
/-! DEFINITION. The program configuration table and its lookup (45_progconfig R270, R271), and the code classes of
30_encoding R112. -/

namespace Sys2Proof.Machine

/-- The row of `PCFG_TABLE` for a code (45_progconfig R271); codes above 23 have none. -/
def State.pcfgRow (s : State) (code : BitVec 6) : Fin 9 × Fin 9 :=
  if h : code.toNat < 24 then s.par.pcfgTable[code.toNat] else (0, 0)

/-- `PCFG(code)` (45_progconfig R270). -/
def pcfgOp (code : BitVec 6) : Op (Fin 9 × Fin 9) := do
  let s ← get
  if code ≤ 23#6 then pure (s.pcfgRow code)
  else if code ≤ 62#6 then raiseErr (.pcfgReserved code)
  else raiseErr (.pcfgIllegal code)

/-- The program-configuration code of the metadata header takes effect (42_frame_header R192). -/
def pcfgField (code : BitVec 6) : Op Unit := do
  updFr fun f => { f with PCFGC := code }
  let e ← pcfgOp code
  updFr fun f => { f with NCH := BitVec.ofNat 4 e.1.val, NPROG := BitVec.ofNat 4 e.2.val }

/-! ### Instructions -/

/-- PCFG (45_progconfig R270); the pair goes to `ret`. -/
def execPcfg (code : BitVec 6) (s : State) : Result :=
  runOp (do
    let e ← pcfgOp code
    giveBack (.pair e.1.val e.2.val)) s

/-- PCFG_VALID (45_progconfig R270, 42_frame_header R192). -/
def execPcfgValid (code : BitVec 6) (s : State) : Result := runOp (pcfgField code) s

/-- PCFG_RESERVED (45_progconfig R270, 30_encoding R112). -/
def execPcfgReserved (code : BitVec 6) (s : State) : Result := runOp (pcfgField code) s

/-- PCFG_ILLEGAL (45_progconfig R270, 30_encoding R112). -/
def execPcfgIllegal (s : State) : Result := runOp (pcfgField 63#6) s

end Sys2Proof.Machine
end

