-- ==== Sys2Proof/Machine/Header.lean ====
section
/-! DEFINITION. The frame header, sync word to channel metadata (42_frame_header). -/

namespace Sys2Proof.Machine

/-! ### Sync -/

/-- The rest of `SYNC` once the sync word has been read (42_frame_header R191): the key flag, the key, then the
comparison. -/
def syncWord (w : Sample) : Op Unit := do
  let d ← needDepth
  updBr fun b => { b with KEYP := w.getLsbD 0 }
  regionStartOp true
  if syncMatches d w then pure () else raiseErr (.badSync w)

/-- `SYNC` (42_frame_header R191). -/
def syncOp : Op Unit := do
  let w ← getSample
  syncWord w

/-! ### Metadata header and timecode -/

/-- `CONTINUITY_INVALIDATE()` (42_frame_header R197). -/
def continuityInvalidateOp : Op Unit := do
  update fun s => s.setCont { s.cont with LASTIDX_V := false, LASTDROP_V := false }
  emitEvent .tcInvalid

/-- The discontinuity warning (42_frame_header R197). -/
def noteDiscontinuity (idx : Nat) : Op Unit := do
  let s ← get
  if s.cont.LASTIDX_V then
    if idx = s.cont.LASTIDX + s.par.tcStep then pure ()
    else emitEvent (.tcDiscont (s.cont.LASTIDX + s.par.tcStep) idx)
  else pure ()

/-- The drop-frame transition events (42_frame_header R197). -/
def noteDropChange (df : Bool) : Op Unit := do
  let s ← get
  whenOp (s.cont.LASTDROP_V && s.cont.LASTDROP != df) (emitEvent (if df then .dropOn else .dropOff))

/-- `CONTINUITY_UPDATE(idx, df)` (42_frame_header R197). -/
def continuityUpdateOp (idx : Nat) (df : Bool) : Op Unit := do
  noteDiscontinuity idx
  noteDropChange df
  update fun s => s.setCont { LASTIDX_V := true, LASTIDX := idx, LASTDROP_V := true, LASTDROP := df }

/-- `FRAMEIDX` of the timecode registers (42_frame_header R195); the digits are not range-checked. -/
def TcRegs.frameIndex (t : TcRegs) : Nat :=
  Config.tc2f (10 * t.TC_HT.toNat + t.TC_HU.toNat) (10 * t.TC_MT.toNat + t.TC_MU.toNat)
    (10 * t.TC_ST.toNat + t.TC_SU.toNat) (10 * t.TC_FT.toNat + t.TC_FU.toNat) t.TC_DF

/-- The rest of `TIMECODE` once its fields are stored (42_frame_header R195). -/
def timecodeDone : Op Unit := do
  let s ← get
  if s.tc.isSentinel then do
    updTc fun t => { t with TCVALID := false }
    continuityInvalidateOp
  else do
    updTc fun t => { t with TCVALID := true, FRAMEIDX := s.tc.frameIndex }
    continuityUpdateOp s.tc.frameIndex s.tc.TC_DF

/-- `TIMECODE` (42_frame_header R195). -/
def timecodeOp : Op Unit := do
  let s ← get
  readLayout (fun e v => updTc fun t => t.store e v) s.par.tcLayout
  timecodeDone

/-- The frame-rate code of the metadata header takes effect (42_frame_header R192). -/
def frcField (frc : BitVec 4) : Op Unit := do
  updFr fun f => { f with FRC := frc }
  if frcIsReserved frc then raiseErr (.frcReserved frc)
  else updFr fun f => { f with LFR := lfrOf frc }

def setMdid (v : BitVec 4) : Op Unit := updFr fun f => { f with MDID := v }
def setMdsize (v : BitVec 10) : Op Unit := updFr fun f => { f with MDSIZE := v }

/-- `METADATA` (42_frame_header R192). -/
def metadataOp : Op Unit := do
  let a ← getbitsOp 4
  setMdid a
  let b ← getbitsOp 10
  setMdsize b
  let c ← getbitsOp 6
  pcfgField c
  let t ← getbitsOp 4
  frcField t
  timecodeOp

/-! ### Frame distribution -/

def setChsz (c : Fin 8) (v : BitVec 10) : Op Unit := updCh fun a => { a with CHSZ := vset a.CHSZ c v }
def setExtsz (v : BitVec 8) : Op Unit := updFr fun f => { f with EXTSZ := v }
def setMetsz (v : BitVec 8) : Op Unit := updFr fun f => { f with METSZ := v }

/-- One channel size (42_frame_header R198). -/
def readChsz (c : Fin 8) : Op Unit := do
  let v ← getbitsOp 10
  setChsz c v

/-- The extension-segment size, present if `LFR = 1` (42_frame_header R198). -/
def readExtsz : Op Unit := do
  let v ← getbitsOp 8
  setExtsz v

/-- `FRAMEDIST` (42_frame_header R198). -/
def framedistOp : Op Unit := do
  let s ← get
  forEach readChsz (idxRange 0 s.fr.NCH.toNat)
  whenOp s.fr.LFR readExtsz
  let m ← getbitsOp 8
  setMetsz m

/-! ### Program metadata -/

/-- The registers of one program after a description character, a text holding at most `max` characters
(42_frame_header R200). -/
def DescText.take (max : Nat) (t : DescText) (ch : BitVec 8) : DescText :=
  if ch = 0x02#8 then { t with RUN := [], RUNOPEN := true }
  else if ch = 0x03#8 then
    if t.RUNOPEN then { t with DESC := t.RUN, DESC_V := true, RUNOPEN := false } else t
  else if ch = 0x00#8 then t
  else if t.RUNOPEN && 0x20#8 ≤ ch && ch ≤ 0x7E#8 && t.RUN.length < max then
    { t with RUN := t.RUN ++ [ch] }
  else t

/-- `DESCCHAR(p, c)` (42_frame_header R200). -/
def desccharOp (p : Fin 8) (ch : BitVec 8) : Op Unit := do
  let s ← get
  update fun s => s.setDesc (vset s.desc p ((s.desc[p]).take s.par.descMax ch))
  whenOp (ch == 0x03#8 && (s.desc[p]).RUNOPEN) (emitEvent (.desc p (s.desc[p]).RUN.length))

def setDchar (p : Fin 8) (v : BitVec 8) : Op Unit := updPg fun a => { a with DCHAR := vset a.DCHAR p v }
def setBwid (p : Fin 8) (v : BitVec 2) : Op Unit := updPg fun a => { a with BWID := vset a.BWID p v }

/-- The metadata of one program (42_frame_header R199). An abort at the bandwidth id keeps the character: DESIGN CHOICE
(60_exceptions R284; log 32). -/
def readPmeta (p : Fin 8) : Op Unit := do
  let c ← getbitsOp 8
  setDchar p c
  desccharOp p c
  let b ← getbitsOp 2
  setBwid p b

/-- `PROGMETA` (42_frame_header R199). An abort between two programs keeps what was read of the earlier ones, the
description registers included: DESIGN CHOICE where 60_exceptions R284 (d) and its last sentence differ (log 32). -/
def progmetaOp : Op Unit := do
  let s ← get
  forEach readPmeta (idxRange 0 s.fr.NPROG.toNat)

/-! ### Channel metadata -/

def setRevid (c : Fin 8) (v : BitVec 4) : Op Unit := updCh fun a => { a with REVID := vset a.REVID c v }
def setBitpool (c : Fin 8) (v : BitVec 1) : Op Unit := updCh fun a => { a with BITPOOL := vset a.BITPOOL c v }
def setBgain (c : Fin 8) (v : BitVec 10) : Op Unit := updCh fun a => { a with BGAIN := vset a.BGAIN c v }
def setEgain (c : Fin 8) (v : BitVec 10) : Op Unit := updCh fun a => { a with EGAIN := vset a.EGAIN c v }

/-- The metadata of one channel (42_frame_header R201). -/
def readCmeta (c : Fin 8) : Op Unit := do
  let r ← getbitsOp 4
  setRevid c r
  let p ← getbitsOp 1
  setBitpool c p
  let b ← getbitsOp 10
  setBgain c b
  let e ← getbitsOp 10
  setEgain c e

/-- `CHANMETA` (42_frame_header R201). -/
def chanmetaOp : Op Unit := do
  let s ← get
  forEach readCmeta (idxRange 0 s.fr.NCH.toNat)

/-! ### Instructions -/

/-- SYNC16 (42_frame_header R191, 30_encoding R97). -/
def execSync16 (k : BitVec 1) (s : State) : Result := runOp (syncWord (Depth.d16.syncConst ||| k.setWidth 24)) s

/-- SYNC20 (42_frame_header R191, 30_encoding R97). -/
def execSync20 (k : BitVec 1) (s : State) : Result := runOp (syncWord (Depth.d20.syncConst ||| k.setWidth 24)) s

/-- SYNC24 (42_frame_header R191, 30_encoding R97). -/
def execSync24 (k : BitVec 1) (s : State) : Result := runOp (syncWord (Depth.d24.syncConst ||| k.setWidth 24)) s

/-- MDHDR (42_frame_header R192, 30_encoding R99). -/
def execMdhdr (mdid : BitVec 4) (size : BitVec 10) (pcfgc : BitVec 6) (frc : BitVec 4) (s : State) : Result :=
  runOp (do
    setMdid mdid
    setMdsize size
    pcfgField pcfgc
    frcField frc) s

/-- TCBLOCK (42_frame_header R195, 30_encoding R100): the values of the layout's fields, in its order. -/
def execTcblock (vals : List Nat) (s : State) : Result :=
  runOp (do
    updTc fun t => t.storeAll (s.par.tcLayout.withValues vals)
    timecodeDone) s

/-- CHSZ (42_frame_header R198, 30_encoding R101). -/
def execChsz (c : Fin 8) (size : BitVec 10) (s : State) : Result := runOp (setChsz c size) s

/-- EXTSZ (42_frame_header R198, 30_encoding R101). -/
def execExtsz (size : BitVec 8) (s : State) : Result := runOp (setExtsz size) s

/-- METSZ (42_frame_header R198, 30_encoding R101). -/
def execMetsz (size : BitVec 8) (s : State) : Result := runOp (setMetsz size) s

/-- PMETA (42_frame_header R199, 30_encoding R102). -/
def execPmeta (p : Fin 8) (ch : BitVec 8) (bw : BitVec 2) (s : State) : Result :=
  runOp (do
    setDchar p ch
    desccharOp p ch
    setBwid p bw) s

/-- CMETA (42_frame_header R201, 30_encoding R103). -/
def execCmeta (c : Fin 8) (rev : BitVec 4) (pool : BitVec 1) (bgain egain : BitVec 10) (s : State) : Result :=
  runOp (do
    setRevid c rev
    setBitpool c pool
    setBgain c bgain
    setEgain c egain) s

/-- NUL (42_frame_header R200, 30_encoding R111). -/
def execNul (p : Fin 8) (s : State) : Result := runOp (desccharOp p 0x00#8) s

/-- STX (42_frame_header R200, 30_encoding R111). -/
def execStx (p : Fin 8) (s : State) : Result := runOp (desccharOp p 0x02#8) s

/-- ETX (42_frame_header R200, 30_encoding R111). -/
def execEtx (p : Fin 8) (s : State) : Result := runOp (desccharOp p 0x03#8) s

/-- PRINT (42_frame_header R200, 30_encoding R111). -/
def execPrint (p : Fin 8) (ch : BitVec 8) (s : State) : Result := runOp (desccharOp p ch) s

/-- CHAR_OTHER (42_frame_header R200, 30_encoding R111). -/
def execCharOther (p : Fin 8) (ch : BitVec 8) (s : State) : Result := runOp (desccharOp p ch) s

/-- FRC_LOW (42_frame_header R192, R194). -/
def execFrcLow (code : BitVec 4) (s : State) : Result := runOp (frcField code) s

/-- FRC_STD (42_frame_header R192, R194). -/
def execFrcStd (code : BitVec 4) (s : State) : Result := runOp (frcField code) s

/-- FRC_RESERVED (42_frame_header R192, 30_encoding R112). -/
def execFrcReserved (code : BitVec 4) (s : State) : Result := runOp (frcField code) s

/-- TIMECODE (42_frame_header R195). -/
def execTimecode (s : State) : Result := runOp timecodeOp s

/-- CONTINUITY_UPDATE (42_frame_header R197). -/
def execContinuityUpdate (idx : Nat) (df : Bool) (s : State) : Result := runOp (continuityUpdateOp idx df) s

/-- CONTINUITY_INVALIDATE (42_frame_header R197). -/
def execContinuityInvalidate (s : State) : Result := runOp continuityInvalidateOp s

/-- DESCCHAR (42_frame_header R200). -/
def execDescchar (p : Fin 8) (ch : BitVec 8) (s : State) : Result := runOp (desccharOp p ch) s

end Sys2Proof.Machine
end

