-- ==== Sys2Proof/Machine/Subseg.lean ====
section
/-! DEFINITION. Metadata subsegments and AC3 bitstream information (43_subsegments). `base` is true in the loop of
`MDSUBSEG`, whose records are `AC3M`, and false in that of `EXTSUBSEG`, whose records are `AC3X`. -/

namespace Sys2Proof.Machine

/-! ### AC3 records -/

/-- The record file a loop writes (43_subsegments R224). -/
def State.recs (s : State) (base : Bool) : Vector Ac3Rec 8 := if base then s.ac3m else s.ac3x

/-- Replace the record file of a loop. -/
def State.setRecs (s : State) (base : Bool) (x : Vector Ac3Rec 8) : State :=
  if base then s.setAc3m x else s.setAc3x x

/-- Update the record of one program. -/
def updRec (base : Bool) (p : Fin 8) (f : Ac3Rec → Ac3Rec) : Op Unit :=
  update fun s => s.setRecs base (vset (s.recs base) p (f ((s.recs base)[p])))

/-- `AC3CHECK(rec)` (43_subsegments R228): data-rate codes 19 to 30 are reserved. -/
def ac3checkOp (base : Bool) (p : Fin 8) : Op Unit := do
  let s ← get
  whenOp (19#32 ≤ ((s.recs base)[p]).get .datarate && ((s.recs base)[p]).get .datarate ≤ 30#32)
    (emitEvent (.ac3Reserved p .datarate (((s.recs base)[p]).get .datarate).toNat))

/-- The end of one program's AC3 block (43_subsegments R224). -/
def ac3BlockDone (ext base : Bool) (p : Fin 8) : Op Unit := do
  updRec base p fun r => { r with EXT := ext, VALID := true }
  ac3checkOp base p

/-- One program's AC3 block (43_subsegments R224). -/
def readAc3Block (ext base : Bool) (p : Fin 8) : Op Unit := do
  let s ← get
  readLayout (fun e v => updRec base p fun r => r.store e v) (s.par.ac3Layout ext)
  ac3BlockDone ext base p

/-- Additional information absent (43_subsegments R225). -/
def addbsiAbsent (base : Bool) (p : Fin 8) : Op Unit :=
  updRec base p fun r => { r with ADDBSIE := false, ADDBSIL := 0 }

/-- Additional information present: its length is taken as read, and that many bytes are skipped
(43_subsegments R225). -/
def addbsiPresent (base : Bool) (p : Fin 8) (len : BitVec 6) : Op Unit := do
  updRec base p fun r => { r with ADDBSIL := len }
  skipbitsOp (8 * len.toNat)

/-- `ADDBSIE <- v` (43_subsegments R225). -/
def setAddbsie (base : Bool) (p : Fin 8) (v : Bool) : Op Unit := updRec base p fun r => { r with ADDBSIE := v }

/-- `ADDBSI(rec)` (43_subsegments R225). -/
def addbsiOp (base : Bool) (p : Fin 8) : Op Unit := do
  let e ← getbitsOp 1
  setAddbsie base p (e.getLsbD 0)
  if e.getLsbD 0 then do
    let len ← getbitsOp 6
    addbsiPresent base p len
  else addbsiAbsent base p

/-- `AC3INFO(ext, base)` (43_subsegments R224). -/
def ac3infoOp (ext base : Bool) : Op Unit := do
  let s ← get
  forEach (readAc3Block ext base) (idxRange 0 s.fr.NPROG.toNat)
  forEach (addbsiOp base) (idxRange 0 s.fr.NPROG.toNat)

/-! ### The loop -/

/-- Whether a sub-block is interpreted (43_subsegments R222). -/
def isInterpreted (base : Bool) (id : BitVec 4) : Bool := id == 1#4 || (id == 2#4 && base)

/-- The body of a sub-block (43_subsegments R222, R223). -/
def subBody (base : Bool) (id : BitVec 4) (len : BitVec 12) : Op Unit :=
  if isInterpreted base id then ac3infoOp (id == 1#4) base else skipbitsOp len.toNat

/-- The reconciliation of an interpreted sub-block with its declared length (43_subsegments R222). -/
def reconcileLength (id : BitVec 4) (len : BitVec 12) (used : Nat) : Op Unit :=
  if used < len.toNat then skipbitsOp (len.toNat - used)
  else whenOp (len.toNat < used) (emitEvent (.subsegLen id len.toNat used))

/-- A count saturating at 255 (10_state R38). -/
def satSucc (v : BitVec 8) : BitVec 8 := if v = 255#8 then 255#8 else v + 1#8

/-- The count of sub-blocks walked (43_subsegments R222). -/
def countSubseg (base : Bool) : Op Unit :=
  updFr fun f => if base then { f with NSUBM := satSucc f.NSUBM } else { f with NSUBX := satSucc f.NSUBX }

/-- One sub-block after its header (43_subsegments R222). -/
def subBlock (base : Bool) (id : BitVec 4) (len : BitVec 12) : Op Unit := do
  let s ← get
  subBody base id len
  let t ← get
  whenOp (isInterpreted base id && s.par.subsegLenReconcile)
    (reconcileLength id len (t.br.BITCNT - s.br.BITCNT))
  countSubseg base

/-- The loop of `SUBSEGLOOP(base)` (43_subsegments R222). Each turn takes at least four bits, so the bits left in the
stream bound the turns (log 24). -/
def subsegFrom (base : Bool) : Nat → Op Unit
  | 0 => fun s => .error (.faulted .loopFuel) s
  | fuel + 1 => do
    let id ← getbitsOp 4
    if id = 0#4 then pure ()
    else do
      let len ← getbitsOp 12
      subBlock base id len
      subsegFrom base fuel

/-- The fuel of a subsegment loop: more than the bits left. -/
def State.subsegFuel (s : State) : Nat := s.br.RESCNT + 8 * (s.src.MEM.len - s.src.POS) + 1

/-- `SUBSEGLOOP(base)` (43_subsegments R222). -/
def subsegloopOp (base : Bool) : Op Unit := do
  let s ← get
  subsegFrom base s.subsegFuel

/-- `MDSUBSEG` (43_subsegments R220). -/
def mdsubsegOp : Op Unit := do
  subsegloopOp true
  let s ← get
  padsegOp s.fr.MDSIZE.toNat .metadata
  crccheckOp .metadata

/-- `EXTSUBSEG` (43_subsegments R221). -/
def extsubsegOp : Op Unit := do
  regionStartOp false
  subsegloopOp false
  let s ← get
  padsegOp s.fr.EXTSZ.toNat .extMeta
  crccheckOp .extMeta

/-! ### Instructions -/

/-- SUBEND (43_subsegments R222): the loop ends; nothing is counted and no length follows. -/
def execSubend (_base : Bool) (s : State) : Result := .next s

/-- AC3X (43_subsegments R222, R224): id 1. -/
def execAc3x (base : Bool) (len : BitVec 12) (s : State) : Result := runOp (subBlock base 1#4 len) s

/-- AC3B (43_subsegments R222, R224): id 2 in the base loop. -/
def execAc3b (len : BitVec 12) (s : State) : Result := runOp (subBlock true 2#4 len) s

/-- SUBSKIP_2X (43_subsegments R222, R223): id 2 in the extension loop. -/
def execSubskip2x (len : BitVec 12) (s : State) : Result := runOp (subBlock false 2#4 len) s

/-- SUBSKIP_3 (43_subsegments R222, R223): id 3. -/
def execSubskip3 (base : Bool) (len : BitVec 12) (s : State) : Result := runOp (subBlock base 3#4 len) s

/-- SUBSKIP_4_7 (43_subsegments R222, R223): ids 4 to 7. -/
def execSubskip4to7 (base : Bool) (i : BitVec 2) (len : BitVec 12) (s : State) : Result :=
  runOp (subBlock base (0b01#2 ++ i) len) s

/-- SUBSKIP_8_15 (43_subsegments R222, R223): ids 8 to 15. -/
def execSubskip8to15 (base : Bool) (i : BitVec 3) (len : BitVec 12) (s : State) : Result :=
  runOp (subBlock base (0b1#1 ++ i) len) s

/-- AC3BASE (43_subsegments R224, R226): the values of the layout's fields, in its order. -/
def execAc3base (base : Bool) (p : Fin 8) (vals : List Nat) (s : State) : Result :=
  runOp (do
    updRec base p fun r => r.storeAll ((s.par.ac3Layout false).withValues vals)
    ac3BlockDone false base p) s

/-- AC3EXT (43_subsegments R224, R227): the values of the layout's fields, in its order, first those of as many fields as a
base block has. -/
def execAc3ext (base : Bool) (p : Fin 8) (vals more : List Nat) (s : State) : Result :=
  runOp (do
    updRec base p fun r => r.storeAll ((s.par.ac3Layout true).withValues (vals ++ more))
    ac3BlockDone true base p) s

/-- ADDBSI0 (43_subsegments R225). -/
def execAddbsi0 (base : Bool) (p : Fin 8) (s : State) : Result := runOp (addbsiAbsent base p) s

/-- ADDBSI1 (43_subsegments R225). -/
def execAddbsi1 (base : Bool) (p : Fin 8) (len : BitVec 6) (s : State) : Result :=
  runOp (do
    setAddbsie base p true
    addbsiPresent base p len) s

/-- SUBSEGLOOP (43_subsegments R222). -/
def execSubsegloop (base : Bool) (s : State) : Result := runOp (subsegloopOp base) s

/-- SKIPSUBSEG (43_subsegments R223). -/
def execSkipsubseg (len : BitVec 12) (s : State) : Result := runOp (skipbitsOp len.toNat) s

/-- AC3INFO (43_subsegments R224). -/
def execAc3info (ext base : Bool) (s : State) : Result := runOp (ac3infoOp ext base) s

/-- ADDBSI (43_subsegments R225). -/
def execAddbsi (base : Bool) (p : Fin 8) (s : State) : Result := runOp (addbsiOp base p) s

/-- AC3CHECK (43_subsegments R228). -/
def execAc3check (base : Bool) (p : Fin 8) (s : State) : Result := runOp (ac3checkOp base p) s

end Sys2Proof.Machine
end

