-- ==== Sys2Proof/Machine/Command.lean ====
section
/-! DEFINITION. The sequencer states as instructions, each ending by writing its successor (10_state R27), and the host
commands (41_burst R160 to R165). -/

namespace Sys2Proof.Machine

/-! ### Dispatch and end of a command -/

/-- What a command writes before its rule runs (41_burst R160). -/
def beginCmd : Op Unit :=
  update fun s =>
    (s.setSeq { s.seq with DONE := false, ERRK := 0, ERRS := 0, ERRST := 0, BUSY := true }).setLastErr none

/-- What a command writes when it ends without a raise (41_burst R160). -/
def finishCmd : Op Unit := updSeq fun q => { q with ST := .idle, BUSY := false, DONE := true }

/-- A command run to its end; a write to `CMD` while `BUSY = 1` is ignored (41_burst R160). -/
def runCommand (body : Op Unit) (s : State) : Result :=
  if s.seq.BUSY then .next s
  else
    runOp (do
      beginCmd
      body
      finishCmd) s

/-- The odd-length test of `READ_FRAME` in two-stream mode (41_burst R164). -/
def refuseOddLength : Op Unit := do
  let d ← needDepth
  let s ← get
  if s.bi.BI_BITLEN.toNat / d.bits % 2 = 1 then raiseErr (.oddLength s.bi.BI_BITLEN) else pure ()

/-- The tests of `READ_FRAME` after `BURSTINFO`, and the reset of the frame-scoped state (41_burst R164). -/
def acceptBurst : Op Unit := do
  let s ← get
  if s.bi.BI_DTYPE = 28#5 then do
    whenOp s.cfg.STREAMS2 refuseOddLength
    payloadInitOp
  else raiseErr (.notDolbyE s.bi.BI_DTYPE)

/-- The extension states, present only if `LFR = 1` (41_burst R164). -/
def extensionStates : Op Unit := do
  enter .extsubseg
  extsubsegOp
  enter .audioext
  audioextOp

/-- `READ_FRAME` (41_burst R164). -/
def readFrameOp : Op Unit := do
  enter .preamble
  preambleOp
  enter .burstinfo
  burstinfoOp
  acceptBurst
  enter .sync
  syncOp
  enter .metadata
  metadataOp
  enter .framedist
  framedistOp
  enter .progmeta
  progmetaOp
  enter .chanmeta
  chanmetaOp
  enter .mdsubseg
  mdsubsegOp
  enter .audio
  audioOp
  let s ← get
  whenOp s.fr.LFR extensionStates
  enter .meter
  meterOp
  enter .complete
  completeOp

/-- `PROBE` (41_burst R165). -/
def probeOp : Op Unit := do
  enter .probescan
  probescanOp

/-- `CLEAR` (41_burst R162, 70_reset R322). -/
def clearOp : Op Unit := do
  payloadInitOp
  updBr fun b => { b with DEPTH := none }
  updSeq fun q => { q with BUSY := false, DONE := false, ERRK := 0, ERRS := 0, ERRST := 0 }

/-! ### Host commands -/

/-- NOP (41_burst R161). -/
def execNop (s : State) : Result := .next s

/-- READ_FRAME (41_burst R160, R164). -/
def execReadFrame (s : State) : Result := runCommand readFrameOp s

/-- PROBE (41_burst R160, R165). -/
def execProbe (s : State) : Result := runCommand probeOp s

/-- ALIGN (41_burst R160, R163). -/
def execAlign (s : State) : Result := runCommand srcAlignOp s

/-- CLEAR (41_burst R160, R162). -/
def execClear (s : State) : Result := runCommand clearOp s

/-- CMD_RESERVED5 (30_encoding R113): acts as NOP. -/
def execCmdReserved5 (s : State) : Result := .next s

/-- CMD_RESERVED6 (30_encoding R113): acts as NOP. -/
def execCmdReserved6 (s : State) : Result := .next s

/-- CMD_RESERVED7 (30_encoding R113): acts as NOP. -/
def execCmdReserved7 (s : State) : Result := .next s

/-! ### Sequencer states -/

/-- The operation of one state, then `ST <- next` (10_state R27). -/
def seqStep (st : SeqState) (body : Op Unit) (next : SeqState) : Op Unit := do
  enter st
  body
  enter next

/-- The operation of a state that ends its command (10_state R27, 41_burst R160). -/
def lastStep (st : SeqState) (body : Op Unit) : Op Unit := do
  enter st
  body
  finishCmd

/-- IDLE (41_burst R160): no command runs; DEFD waits for one. -/
def execIdle (s : State) : Result := .next s

/-- PREAMBLE (41_burst R167). -/
def execPreamble (s : State) : Result := runOp (seqStep .preamble preambleOp .burstinfo) s

/-- BURSTINFO (41_burst R168). The tests of the burst and the payload reset are `READ_FRAME`'s (R164): `passBurst`. -/
def execBurstinfo (s : State) : Result := runOp (seqStep .burstinfo burstinfoOp .sync) s

/-- What `READ_FRAME` does between the operation of the state BURSTINFO and the state SYNC (41_burst R164), when its states
run one by one (log 27): its errors carry `ERRST = BURSTINFO` (95_test_vectors V-BI-1). -/
def passBurst (s : State) : Result := runOp (seqStep .burstinfo acceptBurst .sync) s

/-- SYNC (42_frame_header R191). -/
def execSync (s : State) : Result := runOp (seqStep .sync syncOp .metadata) s

/-- METADATA (42_frame_header R192). -/
def execMetadata (s : State) : Result := runOp (seqStep .metadata metadataOp .framedist) s

/-- FRAMEDIST (42_frame_header R198). -/
def execFramedist (s : State) : Result := runOp (seqStep .framedist framedistOp .progmeta) s

/-- PROGMETA (42_frame_header R199). -/
def execProgmeta (s : State) : Result := runOp (seqStep .progmeta progmetaOp .chanmeta) s

/-- CHANMETA (42_frame_header R201). -/
def execChanmeta (s : State) : Result := runOp (seqStep .chanmeta chanmetaOp .mdsubseg) s

/-- MDSUBSEG (43_subsegments R220). -/
def execMdsubseg (s : State) : Result := runOp (seqStep .mdsubseg mdsubsegOp .audio) s

/-- AUDIO (44_audio_meter R251); its successor depends on `LFR` (10_state R27). -/
def execAudio (s : State) : Result :=
  runOp (seqStep .audio audioOp (if s.fr.LFR then .extsubseg else .meter)) s

/-- EXTSUBSEG (43_subsegments R221). -/
def execExtsubseg (s : State) : Result := runOp (seqStep .extsubseg extsubsegOp .audioext) s

/-- AUDIOEXT (44_audio_meter R252). -/
def execAudioext (s : State) : Result := runOp (seqStep .audioext audioextOp .meter) s

/-- METER (44_audio_meter R253). -/
def execMeter (s : State) : Result := runOp (seqStep .meter meterOp .complete) s

/-- COMPLETE (44_audio_meter R258), which ends READ_FRAME. -/
def execComplete (s : State) : Result := runOp (lastStep .complete completeOp) s

/-- PROBESCAN (41_burst R166), which ends PROBE. -/
def execProbescan (s : State) : Result := runOp (lastStep .probescan probescanOp) s

end Sys2Proof.Machine
end

