-- ==== Sys2Proof/Machine/Dispatch.lean ====
section
/-! DEFINITION. The meaning of every instruction: one arm per constructor of Instr. -/

namespace Sys2Proof.Machine

/-- The meaning of an instruction (one arm per row of spec/opcode_table.json). -/
def exec (i : Instr) (s : State) : Host.Outcome State Fault Refusal :=
  match i with
  | .nop => Sys2Proof.Machine.execNop s
  | .readFrame => Sys2Proof.Machine.execReadFrame s
  | .probe => Sys2Proof.Machine.execProbe s
  | .align => Sys2Proof.Machine.execAlign s
  | .clear => Sys2Proof.Machine.execClear s
  | .cmdReserved5 => Sys2Proof.Machine.execCmdReserved5 s
  | .cmdReserved6 => Sys2Proof.Machine.execCmdReserved6 s
  | .cmdReserved7 => Sys2Proof.Machine.execCmdReserved7 s
  | .idle => Sys2Proof.Machine.execIdle s
  | .preamble => Sys2Proof.Machine.execPreamble s
  | .burstinfo => Sys2Proof.Machine.execBurstinfo s
  | .sync => Sys2Proof.Machine.execSync s
  | .metadata => Sys2Proof.Machine.execMetadata s
  | .framedist => Sys2Proof.Machine.execFramedist s
  | .progmeta => Sys2Proof.Machine.execProgmeta s
  | .chanmeta => Sys2Proof.Machine.execChanmeta s
  | .mdsubseg => Sys2Proof.Machine.execMdsubseg s
  | .audio => Sys2Proof.Machine.execAudio s
  | .extsubseg => Sys2Proof.Machine.execExtsubseg s
  | .audioext => Sys2Proof.Machine.execAudioext s
  | .meter => Sys2Proof.Machine.execMeter s
  | .complete => Sys2Proof.Machine.execComplete s
  | .probescan => Sys2Proof.Machine.execProbescan s
  | .pa16 => Sys2Proof.Machine.execPa16 s
  | .pa20 => Sys2Proof.Machine.execPa20 s
  | .pa24 => Sys2Proof.Machine.execPa24 s
  | .pb16 => Sys2Proof.Machine.execPb16 s
  | .pb20 => Sys2Proof.Machine.execPb20 s
  | .pb24 => Sys2Proof.Machine.execPb24 s
  | .bi1 streamNo dtd errf mode dtype _ => Sys2Proof.Machine.execBi1 streamNo dtd errf mode dtype s
  | .bi2 len _ => Sys2Proof.Machine.execBi2 len s
  | .sync16 k => Sys2Proof.Machine.execSync16 k s
  | .sync20 k => Sys2Proof.Machine.execSync20 k s
  | .sync24 k => Sys2Proof.Machine.execSync24 k s
  | .keyw16 k => Sys2Proof.Machine.execKeyw16 k s
  | .keyw20 k => Sys2Proof.Machine.execKeyw20 k s
  | .keyw24 k => Sys2Proof.Machine.execKeyw24 k s
  | .crcw16 r c => Sys2Proof.Machine.execCrcw16 r c s
  | .crcw20 r c => Sys2Proof.Machine.execCrcw20 r c s
  | .crcw24 r c => Sys2Proof.Machine.execCrcw24 r c s
  | .audiosample16 a => Sys2Proof.Machine.execAudiosample16 a s
  | .audiosample20 a => Sys2Proof.Machine.execAudiosample20 a s
  | .audiosample24 a => Sys2Proof.Machine.execAudiosample24 a s
  | .mdhdr mdid size pcfgc frc => Sys2Proof.Machine.execMdhdr mdid size pcfgc frc s
  | .tcblock vals => Sys2Proof.Machine.execTcblock vals s
  | .chsz c size => Sys2Proof.Machine.execChsz c size s
  | .extsz size => Sys2Proof.Machine.execExtsz size s
  | .metsz size => Sys2Proof.Machine.execMetsz size s
  | .pmeta p ch bw => Sys2Proof.Machine.execPmeta p ch bw s
  | .cmeta c rev pool bgain egain => Sys2Proof.Machine.execCmeta c rev pool bgain egain s
  | .nul p => Sys2Proof.Machine.execNul p s
  | .stx p => Sys2Proof.Machine.execStx p s
  | .etx p => Sys2Proof.Machine.execEtx p s
  | .print p ch => Sys2Proof.Machine.execPrint p ch s
  | .charOther p ch => Sys2Proof.Machine.execCharOther p ch s
  | .subend base => Sys2Proof.Machine.execSubend base s
  | .ac3x base len => Sys2Proof.Machine.execAc3x base len s
  | .ac3b len => Sys2Proof.Machine.execAc3b len s
  | .subskip2x len => Sys2Proof.Machine.execSubskip2x len s
  | .subskip3 base len => Sys2Proof.Machine.execSubskip3 base len s
  | .subskip4to7 base n len => Sys2Proof.Machine.execSubskip4to7 base n len s
  | .subskip8to15 base n len => Sys2Proof.Machine.execSubskip8to15 base n len s
  | .ac3base base p vals => Sys2Proof.Machine.execAc3base base p vals s
  | .ac3ext base p vals more => Sys2Proof.Machine.execAc3ext base p vals more s
  | .addbsi0 base p => Sys2Proof.Machine.execAddbsi0 base p s
  | .addbsi1 base p len => Sys2Proof.Machine.execAddbsi1 base p len s
  | .peak c v => Sys2Proof.Machine.execPeak c v s
  | .rms c v => Sys2Proof.Machine.execRms c v s
  | .pcfgValid code => Sys2Proof.Machine.execPcfgValid code s
  | .pcfgReserved code => Sys2Proof.Machine.execPcfgReserved code s
  | .pcfgIllegal => Sys2Proof.Machine.execPcfgIllegal s
  | .frcLow code => Sys2Proof.Machine.execFrcLow code s
  | .frcStd code => Sys2Proof.Machine.execFrcStd code s
  | .frcReserved code => Sys2Proof.Machine.execFrcReserved code s
  | .crcfold v => Sys2Proof.Machine.execCrcfold v s
  | .payloadInit => Sys2Proof.Machine.execPayloadInit s
  | .pullword => Sys2Proof.Machine.execPullword s
  | .getbits n => Sys2Proof.Machine.execGetbits n s
  | .skipbits k => Sys2Proof.Machine.execSkipbits k s
  | .regionStart first => Sys2Proof.Machine.execRegionStart first s
  | .padseg size r => Sys2Proof.Machine.execPadseg size r s
  | .crccheck r => Sys2Proof.Machine.execCrccheck r s
  | .timecode => Sys2Proof.Machine.execTimecode s
  | .continuityUpdate idx df => Sys2Proof.Machine.execContinuityUpdate idx df s
  | .continuityInvalidate => Sys2Proof.Machine.execContinuityInvalidate s
  | .descchar p ch => Sys2Proof.Machine.execDescchar p ch s
  | .subsegloop base => Sys2Proof.Machine.execSubsegloop base s
  | .skipsubseg len => Sys2Proof.Machine.execSkipsubseg len s
  | .ac3info ext base => Sys2Proof.Machine.execAc3info ext base s
  | .addbsi base p => Sys2Proof.Machine.execAddbsi base p s
  | .ac3check base p => Sys2Proof.Machine.execAc3check base p s
  | .audiohalf lo hi r => Sys2Proof.Machine.execAudiohalf lo hi r s
  | .pcfg code => Sys2Proof.Machine.execPcfg code s
  | .memRead a n => Sys2Proof.Machine.execMemRead a n s
  | .srcReadWord => Sys2Proof.Machine.execSrcReadWord s
  | .srcMark => Sys2Proof.Machine.execSrcMark s
  | .srcReset => Sys2Proof.Machine.execSrcReset s
  | .srcAlign => Sys2Proof.Machine.execSrcAlign s
  | .raise e => Sys2Proof.Machine.execRaise e s
  | .emit e => Sys2Proof.Machine.execEmit e s

end Sys2Proof.Machine
end

