-- ==== Sys2Proof/Machine/HostPort.lean ====
section
/-! DEFINITION. How an operation comes to run: the host port (10_state R30 to R32, R45), the fetch of a unit of the
stream at a slot, the decoding of a code and what a rejected code does, and the requests of the model's port
(log 1, 7). Step.lean only calls these. -/

namespace Sys2Proof.Machine

/-! ### Running a code -/

/-- What a code that is no instruction does: an error the rules raise for it, or a stop (30_encoding R112, 10_state R29). -/
def runRejected (e : Reject) (s : State) : Result :=
  match e with
  | .notPreamble1 w => runOp (raiseErr (.badPreamble w)) s
  | .notPreamble2 w => runOp (raiseErr (.badPreamble2 w)) s
  | .notSync _ w => runOp (syncWord w) s
  | .stUnused => .fault .stUnused
  | .tooWide => .refused .malformedUnit
  | .wrongLength => .refused .malformedUnit

/-- Decode a code and run its instruction. -/
def runCode (u : Code) (s : State) : Result :=
  match decode s.par u with
  | .ok i => exec i s
  | .error e => runRejected e s

/-! ### Fetching a unit of the stream -/

/-- Read fields of these widths and put them together, the first most significant. -/
def readFields : List Nat → Nat → Op Nat
  | [], acc => pure acc
  | w :: ws, acc => do
    let v ← getbitsOp w
    readFields ws (acc * 2 ^ w + v.toNat)

/-- A raw word (30_encoding R90); at the end of the stream the header error of 41_burst R167, R168. -/
def fetchWord (i : BitVec 2) : Op Nat := do
  let w ← headerWord i
  pure w.toNat

/-- A sample at depth `d`, which must be the active one (30_encoding R90). -/
def fetchSample (d : Depth) : Op Nat := do
  let a ← needDepth
  if a = d then readFields [d.bits] 0 else refuse .malformedUnit

/-- Read the unit of the stream that stands at a slot: how many bits it has, and the bits. The command port and the
register `ST` are no part of the stream. -/
def fetchUnit : Slot → Op Code
  | .cmd => refuse .malformedUnit
  | .state => refuse .malformedUnit
  | .preamble1 => do
    let w ← fetchWord 0
    pure ⟨.preamble1, 32, w⟩
  | .preamble2 => do
    let w ← fetchWord 1
    pure ⟨.preamble2, 32, w⟩
  | .burst1 => do
    let w ← fetchWord 2
    pure ⟨.burst1, 32, w⟩
  | .burst2 => do
    let w ← fetchWord 3
    pure ⟨.burst2, 32, w⟩
  | .sync d => do
    let w ← fetchSample d
    pure ⟨.sync d, d.bits, w⟩
  | .key d => do
    dropKey
    let w ← fetchSample d
    pure ⟨.key d, d.bits, w⟩
  | .crcWord d r => do
    let w ← fetchSample d
    pure ⟨.crcWord d r, d.bits, w⟩
  | .audioSample d => do
    let w ← fetchSample d
    pure ⟨.audioSample d, d.bits, w⟩
  | .mdhdr => do
    let w ← readFields [4, 10, 6, 4] 0
    pure ⟨.mdhdr, 24, w⟩
  | .tcblock => do
    let s ← get
    let w ← readFields s.par.tcLayout.widths 0
    pure ⟨.tcblock, s.par.tcLayout.bits, w⟩
  | .chsz c => do
    let w ← readFields [10] 0
    pure ⟨.chsz c, 10, w⟩
  | .extsz => do
    let w ← readFields [8] 0
    pure ⟨.extsz, 8, w⟩
  | .metsz => do
    let w ← readFields [8] 0
    pure ⟨.metsz, 8, w⟩
  | .pmeta p => do
    let w ← readFields [8, 2] 0
    pure ⟨.pmeta p, 10, w⟩
  | .cmeta c => do
    let w ← readFields [4, 1, 10, 10] 0
    pure ⟨.cmeta c, 25, w⟩
  | .descChar p => do
    let w ← readFields [8] 0
    pure ⟨.descChar p, 8, w⟩
  | .subHeader base => do
    let id ← getbitsOp 4
    if id = 0#4 then pure ⟨.subHeader base, 4, 0⟩
    else do
      let w ← readFields [12] id.toNat
      pure ⟨.subHeader base, 16, w⟩
  | .ac3Block ext base p => do
    let s ← get
    let w ← readFields (s.par.ac3Layout ext).widths 0
    pure ⟨.ac3Block ext base p, (s.par.ac3Layout ext).bits, w⟩
  | .addbsi base p => do
    let e ← getbitsOp 1
    if e = 0#1 then pure ⟨.addbsi base p, 1, 0⟩
    else do
      let w ← readFields [6] 1
      pure ⟨.addbsi base p, 7, w⟩
  | .peak c => do
    let w ← readFields [10] 0
    pure ⟨.peak c, 10, w⟩
  | .rms c => do
    let w ← readFields [10] 0
    pure ⟨.rms c, 10, w⟩
  | .pcfgCode => do
    let w ← readFields [6] 0
    pure ⟨.pcfgCode, 6, w⟩
  | .frcCode => do
    let w ← readFields [4] 0
    pure ⟨.frcCode, 4, w⟩

/-- Fetch the unit at a slot, decode it and run its instruction; an error of the fetch is taken. -/
def recogniseUnit (slot : Slot) (s : State) : Result :=
  match fetchUnit slot s with
  | .ok u t => runCode u t
  | .error a t => runOp (fun x => .error a x) t

/-! ### The host port -/

/-- A host write that is outside the spec while `BUSY = 1` (93 U11; log 17). -/
def hostSet (f : State → State) (s : State) : Result :=
  if s.seq.BUSY then .refused .hostWhileBusy else .next (f s)

/-- A host write of a register by number (10_state R30 to R32, R45; 93 U26). -/
def hostWrite (reg : Nat) (v : BitVec 32) (s : State) : Result :=
  match reg with
  | 0 => .next s
  | 1 => hostSet (fun s => s.setCfg { s.cfg with STREAMS2 := v.getLsbD 0, PACK3 := v.getLsbD 1 }) s
  | 2 => hostSet (fun s => s.setCfg { s.cfg with PROBE_WINDOW := v }) s
  | 3 => hostSet (fun s => s.setCfg { s.cfg with PROBE_LATE := v }) s
  | 4 => .next s
  | 5 => runCode ⟨.cmd, 3, v.toNat % 8⟩ s
  | _ => .refused (.hostRegister reg)

/-- A host read of a register by number (10_state R30 to R32, R45; 93 U26). -/
def hostRead (reg : Nat) (s : State) : Result :=
  match reg with
  | 0 => .next (s.setRet (.num s.seq.statusWord.toNat))
  | 1 => .next (s.setRet (.num s.cfg.cfgWord.toNat))
  | 2 => .next (s.setRet (.num s.cfg.PROBE_WINDOW.toNat))
  | 3 => .next (s.setRet (.num s.cfg.PROBE_LATE.toNat))
  | 4 => .next (s.setRet (.num s.cfg.PROBE_OFF.toNat))
  | 5 => .next (s.setRet (.num 0))
  | _ => .refused (.hostRegister reg)

/-- The host moves the stream position between commands (70_reset R331, R333; log 25). -/
def hostSeek (pos : Nat) (s : State) : Result :=
  if s.seq.BUSY then .refused .hostWhileBusy
  else if pos ≤ s.src.MEM.len then .next (s.setSrc { s.src with POS := pos })
  else .refused (.seekOutside pos)

/-! ### Requests -/

/-- Begin a command that is then run one sequencer state per step; a command without sequencer states runs whole
(41_burst R160, 60_exceptions R298; log 7). -/
def beginStepped (code : BitVec 3) (s : State) : Result :=
  if s.seq.BUSY then .next s
  else if code = 1#3 then
    runOp (do
      beginCmd
      enter .preamble) s
  else if code = 2#3 then
    runOp (do
      beginCmd
      enter .probescan) s
  else runCode ⟨.cmd, 3, code.toNat⟩ s

/-- Serve a request that has been taken from the port. -/
def serve (r : Request) (s : State) : Result :=
  match r with
  | .write reg v => hostWrite reg v s
  | .read reg => hostRead reg s
  | .seek pos => hostSeek pos s
  | .stepped code => beginStepped code s
  | .recognise slot => recogniseUnit slot s
  | .invoke i => exec i s

/-- Host register accesses and seeks are served in any sequencer state (10_state R45); the other requests wait until
`ST` is `IDLE`, since no operation overlaps another (70_reset R330). -/
def Request.isAccess : Request → Bool
  | .write _ _ | .read _ | .seek _ => true
  | .stepped _ | .recognise _ | .invoke _ => false

/-- What `READ_FRAME` does after the operation of one of its states and before the next (41_burst R164): only the state
BURSTINFO, if it did not raise, is followed by something (log 27). -/
def betweenStates (st : SeqState) (r : Result) : Result :=
  match r with
  | .next t => if st = .burstinfo ∧ t.seq.ST = .sync then passBurst t else .next t
  | .fault f => .fault f
  | .refused q => .refused q

/-- Run the operation of the sequencer state (10_state R26), and what the command does between that state and the next. -/
def runState (s : State) : Result := betweenStates s.seq.ST (runCode ⟨.state, 4, s.seq.ST.code.toNat⟩ s)

/-- One step: a waiting host access is served; otherwise the operation of `ST` runs, and in `IDLE` the next request is
taken first, if there is one (log 1, 7). -/
def stepOnce (s : State) : Result :=
  match s.port with
  | [] => runState s
  | r :: rest => if r.isAccess || s.seq.ST == .idle then serve r (s.setPort rest) else runState s

/-! ### Placing a table word where the next step fetches it -/

/-- The samples of a unit of `n` bits, padded with zeros to whole samples of depth `d`, the first first. -/
def samplesOf (d : Depth) (n bits : Nat) : List Nat :=
  let count := (n + d.bits - 1) / d.bits
  (List.range count).map fun i => (bits * 2 ^ (count * d.bits - n)) >>> ((count - 1 - i) * d.bits) % 2 ^ d.bits

/-- The four bytes of a raw word, least significant first (20_memory R63). -/
def bytesOfWord (w : Nat) : List Byte :=
  [BitVec.ofNat 8 w, BitVec.ofNat 8 (w >>> 8), BitVec.ofNat 8 (w >>> 16), BitVec.ofNat 8 (w >>> 24)]

/-- The depth a slot's unit is placed at. -/
def placeDepth : Slot → Depth
  | .sync d | .key d | .crcWord d _ | .audioSample d => d
  | _ => .d16

/-- The raw words that carry a unit: itself for a raw-word format, else its samples in the top bits of words. -/
def codeWords (u : Code) : List Nat :=
  match u.slot with
  | .preamble1 | .preamble2 | .burst1 | .burst2 => [u.bits]
  | _ => (samplesOf (placeDepth u.slot) u.nbits u.bits).map fun v => v * 2 ^ (32 - (placeDepth u.slot).bits)

/-- How many zero bytes stand after a placed unit, more than any instruction reads (log 6). -/
def placeSlack : Nat := 2048

/-- The stream with the words written at a position and zeros after them. -/
def Memory.place (m : Memory) (pos : Nat) (ws : List Nat) : Memory :=
  let m' := m.writeBytes pos (ws.flatMap bytesOfWord)
  ⟨max m'.len (pos + 4 * ws.length + placeSlack), m'.cells⟩

/-- What recognition at a slot takes besides the stream: idle sequencer, 4-byte words, the slot's depth, an empty residual
buffer, no key, and for preamble word 2 the depth its word 1 selects (log 6). -/
def State.placeUnit (s : State) (u : Code) : State :=
  { s with
    seq := { s.seq with ST := .idle, BUSY := false }
    cfg := { s.cfg with PACK3 := false }
    br := { s.br with DEPTH := some (placeDepth u.slot), RES := 0, RESCNT := 0, KEY := 0 }
    src := { s.src with MEM := s.src.MEM.place s.src.POS (codeWords u) }
    pd := match u.slot with
      | .preamble2 => preamble2Depth (BitVec.ofNat 32 u.bits)
      | _ => s.pd
    port := [.recognise u.slot] }

/-- The sequencer state of a code of `ST` (10_state R26). -/
def seqStateOf (code : Nat) : SeqState :=
  ([.idle, .preamble, .burstinfo, .sync, .metadata, .framedist, .progmeta, .chanmeta, .mdsubseg, .audio, .extsubseg,
    .audioext, .meter, .complete, .probescan] : List SeqState).getD code .unused

/-- What the operation of a sequencer state takes: `ST`, `BUSY`, a depth, and zeros to read (log 6). -/
def State.placeState (s : State) (code : Nat) : State :=
  { s with
    seq := { s.seq with ST := seqStateOf code, BUSY := true }
    br := { s.br with DEPTH := some .d16 }
    src := { s.src with MEM := ⟨max s.src.MEM.len (s.src.POS + 64), s.src.MEM.cells⟩ }
    port := [] }

/-- Place a code where the next step fetches it: a command on the port, a state in `ST`, a unit in the stream. -/
def State.placeCode (s : State) (u : Code) : State :=
  match u.slot with
  | .cmd => { s with seq := { s.seq with ST := .idle, BUSY := false }, port := [.write 5 (BitVec.ofNat 32 u.bits)] }
  | .state => s.placeState u.bits
  | _ => s.placeUnit u

end Sys2Proof.Machine
end

