-- ==== Sys2Proof/Machine/Step.lean ====
section
/-! DEFINITION. One step of DEFD, and the placing of a table word where the next step fetches it. -/

namespace Sys2Proof.Machine

/-- One step (10_state R26, R27; 41_burst R160; log 1). -/
def step (s : State) : Host.Outcome State Fault Refusal := stepOnce s

/-- `s` with a bare table word of `nbits` bits placed where `step` fetches its next instruction; a word the decoder reads
at no slot changes nothing (log 6). -/
def State.withFetchWord (s : State) (nbits w : Nat) : State :=
  match tableCode s.par nbits w with
  | some u => s.placeCode u
  | none => s

end Sys2Proof.Machine
end

