-- ==== Sys2Proof/Safety.lean ====
section
/-! DEFINITION. The terms claims are stated in. First the admissible parameters and the invariant of the machine. Then the logical bitstream of
10_state R28 as a function of the state, and for each operation of the rules the state it leaves when it runs to its
end, written with bit offsets into that stream instead of reads one after another. These functions do not say whether
the stream is long enough: a claim asks that the position they end at lies in the stream. -/

namespace Sys2Proof

/-! ### The parameters -/

/-- The width of the register a timecode field goes to (10_state R33); an unused field goes nowhere. -/
def TcField.regWidth : TcField → Nat
  | .unused => 32
  | .ht | .ft => 2
  | .mt | .st => 3
  | .hu | .mu | .su | .fu => 4
  | .df => 1

/-- The values the spec admits for the parameters of 00_scope R7: widths that a `GETBITS` can read (40_bitreader R134)
and the registers can hold (10_state R33), and a program configuration table with the source's three rows, even channel
counts and at least one program (45_progconfig R271). -/
structure Params.Ok (p : Params) : Prop where
  tc : ∀ x ∈ p.tcLayout, 1 ≤ x.2 ∧ x.2 ≤ x.1.regWidth
  ac3Base : ∀ x ∈ p.ac3LayoutBase, 1 ≤ x.2 ∧ x.2 ≤ 32
  ac3Ext : ∀ x ∈ p.ac3LayoutExt, 1 ≤ x.2 ∧ x.2 ≤ 32
  row0 : p.pcfgTable[0] = (8, 2)
  row11 : p.pcfgTable[11] = (6, 1)
  row18 : p.pcfgTable[18] = (4, 1)
  rows : ∀ c : Fin 24, p.pcfgTable[c].1.val % 2 = 0 ∧ 1 ≤ p.pcfgTable[c].2.val

/-- The width a layout gives a field, 0 if it does not name it; of several entries the widest counts. -/
def Layout.widthOf {φ : Type} [DecidableEq φ] (l : Layout φ) (f : φ) : Nat :=
  ((l.filter fun e => e.1 = f).map Prod.snd).foldl max 0

/-- The width of a field of an AC3 record (10_state R37). A record keeps what a block with the other layout left in it, so
of the widths the two layouts give the field the larger bounds it. -/
def Params.recordWidth (p : Params) (f : Ac3Field) : Nat := max (p.ac3LayoutBase.widthOf f) (p.ac3LayoutExt.widthOf f)

end Sys2Proof

namespace Sys2Proof.Machine

/-! ### The invariant -/

/-- The text registers of one program (10_state R40, 42_frame_header R200): at most `max` characters, all printable. -/
structure DescText.Ok (max : Nat) (t : DescText) : Prop where
  runLen : t.RUN.length ≤ max
  descLen : t.DESC.length ≤ max
  runPrintable : ∀ c ∈ t.RUN, isPrintable c = true
  descPrintable : ∀ c ∈ t.DESC, isPrintable c = true

/-- What holds between steps, from reset on. `RESCNT ≤ DEPTH - 1` of 10_state R23 is not part of it (log 22). -/
structure State.Inv (s : State) : Prop where
  /-- the stream is in canonical form -/
  mem : s.src.MEM.wf = true
  /-- `0 ≤ POS ≤ len(MEM)` (10_state R42) -/
  pos : s.src.POS ≤ s.src.MEM.len
  /-- a pending mark is a position of the stream (10_state R42) -/
  mark : s.src.MARK_V = true → s.src.MARKPOS ≤ s.src.MEM.len
  /-- `RESCNT` in 0 .. 55 (10_state R22) -/
  rescnt : s.br.RESCNT ≤ 55
  /-- all bits of `RES` from `RESCNT` up are 0 (10_state R22, R23) -/
  res : s.br.RES.toNat < 2 ^ s.br.RESCNT
  /-- `NCH` in 0 .. 8 (10_state R33) -/
  nch : s.fr.NCH.toNat ≤ 8
  /-- `NPROG` in 0 .. 8 (10_state R33) -/
  nprog : s.fr.NPROG.toNat ≤ 8
  /-- `BUSY` is 1 exactly while `ST` is not `IDLE` (10_state R30) -/
  busy : s.seq.BUSY = true ↔ s.seq.ST ≠ .idle
  /-- `ST = 15` is never entered (10_state R29) -/
  used : s.seq.ST ≠ .unused
  /-- the text registers, at most `DESC_MAX` characters each -/
  text : ∀ p : Fin 8, (s.desc[p]).Ok s.par.descMax
  /-- a field of an AC3 record is a number of the width its layout entry gives it (10_state R37) -/
  records : ∀ (base : Bool) (p : Fin 8) (f : Ac3Field),
    (((s.recs base)[p]).get f).toNat < 2 ^ s.par.recordWidth f
  /-- the parameters are admissible -/
  par : s.par.Ok

/-- What the reading operations need of the bit reader: a depth, and nothing above bit `RESCNT - 1` of `RES`
(40_bitreader R130, 10_state R23). -/
structure State.Ready (s : State) (d : Depth) : Prop where
  depth : s.br.DEPTH = some d
  res : s.br.RES.toNat < 2 ^ s.br.RESCNT

/-! ### The logical bitstream -/

/-- The raw word `i` words after `POS` (20_memory R63, R69). -/
def State.wordAt (s : State) (i : Nat) : Word :=
  wordOfBytes (s.src.MEM.bytesFrom (s.src.POS + i * s.sampleBytes) s.sampleBytes)

/-- The descrambled sample of that word (40_bitreader R133). -/
def State.sampleAt (s : State) (d : Depth) (i : Nat) : Sample := sampleOf d s.br.KEY (s.wordAt i)

/-- Unread bit `i` of the logical bitstream: first the residual bits, then the samples at `POS`, each most significant
bit first (10_state R28). -/
def State.bitAt (s : State) (d : Depth) (i : Nat) : Bool :=
  if i < s.br.RESCNT then s.br.RES.getLsbD (s.br.RESCNT - 1 - i)
  else (s.sampleAt d ((i - s.br.RESCNT) / d.bits)).getLsbD (d.bits - 1 - (i - s.br.RESCNT) % d.bits)

/-- `n` bits as a number, bit 0 most significant (00_scope R12). -/
def bitsValue (f : Nat → Bool) : Nat → Nat
  | 0 => 0
  | n + 1 => 2 * bitsValue f n + (f n).toNat

/-- The `w` bits from offset `off` of the logical bitstream, as a number. -/
def State.field (s : State) (d : Depth) (off w : Nat) : Nat := bitsValue (fun i => s.bitAt d (off + i)) w

/-- The entries of a layout with their values, the first field standing at offset `off` of the logical bitstream. -/
def State.layoutFields {φ : Type} (s : State) (d : Depth) : Nat → Layout φ → List ((φ × Nat) × Nat)
  | _, [] => []
  | off, e :: rest => (e, s.field d off e.2) :: s.layoutFields d (off + e.2) rest

/-- How many words must be pulled to deliver `n` bits (40_bitreader R134). -/
def State.wordsFor (s : State) (d : Depth) (n : Nat) : Nat := (n - s.br.RESCNT + (d.bits - 1)) / d.bits

/-- The CRC register after the first `k` of the samples `f 0, f 1, …` (40_bitreader R131, R133). -/
def foldSamples (d : Depth) (crc : BitVec 16) (f : Nat → Sample) : Nat → BitVec 16
  | 0 => crc
  | k + 1 => crcFold d (foldSamples d crc f k) (f k)

/-- The state after `n` bits have been delivered (40_bitreader R134, R135, R141). -/
def State.consume (s : State) (d : Depth) (n : Nat) : State :=
  { s with
    br := { s.br with
      RES := BitVec.ofNat 64 (s.field d n (s.br.RESCNT + s.wordsFor d n * d.bits - n))
      RESCNT := s.br.RESCNT + s.wordsFor d n * d.bits - n
      CRC := foldSamples d s.br.CRC (s.sampleAt d) (s.wordsFor d n)
      BITCNT := s.br.BITCNT + n
      BYTECNT := s.br.BYTECNT + s.wordsFor d n * s.sampleBytes }
    src := { s.src with POS := s.src.POS + s.wordsFor d n * s.sampleBytes } }

/-- The residual bits and the next `k` samples as one number. -/
def State.concat (s : State) (d : Depth) : Nat → Nat
  | 0 => s.br.RES.toNat
  | k + 1 => s.concat d k * 2 ^ d.bits + (s.sampleAt d k).toNat

/-- The state after `k` words have been pulled and nothing delivered (40_bitreader R133). -/
def State.pulled (s : State) (d : Depth) (k : Nat) : State :=
  { s with
    br := { s.br with
      RES := BitVec.ofNat 64 (s.concat d k)
      RESCNT := s.br.RESCNT + k * d.bits
      CRC := foldSamples d s.br.CRC (s.sampleAt d) k
      BYTECNT := s.br.BYTECNT + k * s.sampleBytes }
    src := { s.src with POS := s.src.POS + k * s.sampleBytes } }

/-- `n` bits read one at a time and put together, most significant first (40_bitreader R134). -/
def serialBits : Nat → Nat → Op Nat
  | 0, acc => pure acc
  | n + 1, acc => do
    let b ← getbitsOp 1
    serialBits n (2 * acc + b.toNat)

/-! ### The CRC as a remainder -/

/-- The product over GF(2) of `G` and the polynomial of the low `k` bits of `q` (40_bitreader R131). -/
def polyTimesG (q : Nat) : Nat → BitVec 40
  | 0 => 0
  | k + 1 => polyTimesG q k ^^^ (if q.testBit k then crcPoly <<< k else 0)

/-- The CRC register after a list of samples, from 0 (40_bitreader R131). -/
def crcOf (d : Depth) (samples : List Sample) : BitVec 16 := samples.foldl (crcFold d) 0

/-- The codeword that closes a region whose register is `r` (40_bitreader R139). -/
def codewordOf (d : Depth) (r : BitVec 16) : Sample := (crcFold d r 0).setWidth 24

/-! ### Regions -/

/-- The state after the key word of a region (40_bitreader R136); by `KEY_CLEAR_BEFORE_READ` the old key is gone while
the word is pulled. -/
def State.afterKey (s : State) (d : Depth) : State :=
  let s0 := s.setBr { s.br with KEY := if s.par.keyClearBeforeRead then 0 else s.br.KEY }
  let s1 := s0.consume d d.bits
  s1.setBr { s1.br with KEY := BitVec.ofNat 24 (s0.field d 0 d.bits) }

/-- Bit counter and, by `CRC_CLEAR_AT_REGION_START`, CRC register at the start of a region (40_bitreader R136). -/
def State.regionBegun (s : State) : State :=
  s.setBr { s.br with BITCNT := 0, CRC := if s.par.crcClearAtRegionStart then 0 else s.br.CRC }

/-- The state after `REGION_START(first)` (40_bitreader R136): a key is read if the frame has keys and, past the first
region, if `KEY_PER_REGION` says so. -/
def State.afterRegionStart (s : State) (d : Depth) (first : Bool) : State :=
  if s.br.KEYP = true ∧ (first = true ∨ s.par.keyPerRegion = true) then (s.afterKey d).regionBegun
  else s.regionBegun

/-- The state after a codeword `c` has been read in region `r` (40_bitreader R138): by `CRC_CLEAR_AFTER_CHECK` the
register is cleared. -/
def State.afterCodeword (s : State) (r : Region) (c : Sample) : State :=
  (s.setEv (if s.br.CRC = 0 then s.ev else s.ev ++ [.crc r s.br.CRC c])).setBr
    { s.br with CRC := if s.par.crcClearAfterCheck then 0 else s.br.CRC }

/-- The state after `CRCCHECK` (40_bitreader R138). -/
def State.afterCrc (s : State) (d : Depth) (r : Region) : State :=
  (s.consume d d.bits).afterCodeword r (BitVec.ofNat 24 (s.field d 0 d.bits))

/-- `PADSEG` does not raise: the segment is not overrun, or `SEG_OVERRUN_POLICY` is `warn_continue` (40_bitreader R137). -/
def State.PadOk (s : State) (d : Depth) (size : Nat) : Prop :=
  s.br.BITCNT ≤ size * d.bits ∨ s.par.segOverrunFaults = false

/-- The state after `PADSEG`, if it does not raise (40_bitreader R137). -/
def State.afterPad (s : State) (d : Depth) (size : Nat) (r : Region) : State :=
  if s.br.BITCNT ≤ size * d.bits then s.consume d (size * d.bits - s.br.BITCNT)
  else s.setEv (s.ev ++ [.segOverrun r (s.br.BITCNT - size * d.bits)])

/-! ### Burst layer -/

/-- The state after `PREAMBLE` has met the two words of depth `d` (41_burst R167). -/
def State.afterPreamble (s : State) (d : Depth) : State :=
  ((s.setSrc { s.src with POS := s.src.POS + 2 * s.sampleBytes }).setPd (some d)).setBr { s.br with DEPTH := some d }

/-- The warnings of burst-info word 1 (41_burst R168). -/
def burstWarnings (dtd : BitVec 5) (mode : BitVec 2) (dtype : BitVec 5) : List Event :=
  (if dtd = 0 then [] else [.biDtd dtd]) ++ (if mode = 1 then [] else [.biMode mode]) ++
    (if dtype = 28 then [] else [.biDtype dtype])

/-- The burst-info registers of two words (41_burst R168, 30_encoding R95, R96). -/
def burstOf (a b : Word) : BurstInfo where
  BI_STREAMNO := a.extractLsb' 29 3
  BI_DTD := a.extractLsb' 24 5
  BI_ERRF := a.extractLsb' 23 1
  BI_MODE := a.extractLsb' 21 2
  BI_DTYPE := a.extractLsb' 16 5
  BI_BITLEN := b.extractLsb' 12 20

/-- The state after `PAYLOAD_INIT` (40_bitreader R132). -/
def State.afterPayloadInit (s : State) : State :=
  { s with
    br := { DEPTH := s.br.DEPTH, RES := 0, RESCNT := 0, KEY := 0, KEYP := false, CRC := 0, BITCNT := 0, BYTECNT := 0 }
    fr := { s.fr with EXTSZ := 0, NSUBM := 0, NSUBX := 0 }
    ac3m := s.ac3m.map fun r => { r with VALID := false }
    ac3x := s.ac3x.map fun r => { r with VALID := false } }

/-- The state after the two burst-info words (41_burst R168). -/
def State.withBurst (s : State) : State :=
  let bi := burstOf (s.wordAt 0) (s.wordAt 1)
  ((s.setSrc { s.src with POS := s.src.POS + 2 * s.sampleBytes }).setBi bi).setEv
    (s.ev ++ burstWarnings bi.BI_DTD bi.BI_MODE bi.BI_DTYPE)

/-- The state after `BURSTINFO` and, the type being Dolby E, `PAYLOAD_INIT` (41_burst R164, R168). -/
def State.afterBurst (s : State) : State := s.withBurst.afterPayloadInit

/-- The state with the mark at the reading position (20_memory R64). -/
def State.marked (s : State) : State := s.setSrc { s.src with MARKPOS := s.src.POS, MARK_V := true }

/-- The state with the reading position `n` bytes further. -/
def State.advanced (s : State) (n : Nat) : State := s.setSrc { s.src with POS := s.src.POS + n }

/-- `PREAMBLE`'s local variable `d` after a candidate: the depth its first word selects, or as before if that word is no
preamble (41_burst R167; log 5). -/
def State.candidateDepth (s : State) : Option Depth :=
  match preamble1Depth (s.wordAt 0) with
  | some d => some d
  | none => s.pd

/-- A candidate that `PREAMBLE` refuses with a FormatError (41_burst R166, R167): its first word is nonzero and no
preamble, or it is a preamble and the word after it is there and not its companion. -/
def State.FailedCandidate (s : State) : Prop :=
  s.wordAt 0 ≠ 0 ∧
    (preamble1Depth (s.wordAt 0) = none ∨
      ∃ d, preamble1Depth (s.wordAt 0) = some d ∧ s.src.POS + 2 * s.sampleBytes ≤ s.src.MEM.len ∧
        s.wordAt 1 ≠ d.preamble2)

/-- The probe goes from `s`, `off` bytes from its start, to `t`, `off'` bytes from its start (41_burst R166): it passes a
zero word by one unit and a failed candidate by one unit per stream, each inside the window and in the stream. -/
inductive ProbeWalk : State → Nat → State → Nat → Prop where
  | here (s : State) (off : Nat) : ProbeWalk s off s off
  | zero (s t : State) (off off' : Nat) (hin : off < s.cfg.PROBE_WINDOW.toNat)
      (hlen : s.src.POS + s.sampleBytes ≤ s.src.MEM.len) (h : s.wordAt 0 = 0)
      (rest : ProbeWalk (s.marked.advanced s.sampleBytes) (off + s.sampleBytes) t off') : ProbeWalk s off t off'
  | failed (s t : State) (off off' : Nat) (hin : off < s.cfg.PROBE_WINDOW.toNat)
      (hlen : s.src.POS + s.streams * s.sampleBytes ≤ s.src.MEM.len) (h : s.FailedCandidate)
      (rest : ProbeWalk ((s.marked.setPd s.candidateDepth).advanced (s.streams * s.sampleBytes))
        (off + s.streams * s.sampleBytes) t off') : ProbeWalk s off t off'

/-- The state after the probe, standing `off` bytes from its start, meets the preamble of depth `d` (41_burst R166). -/
def State.afterProbe (s : State) (d : Depth) (off : Nat) : State :=
  { s with
    br := { s.br with DEPTH := some d }
    pd := some d
    cfg := { s.cfg with PROBE_OFF := BitVec.ofNat 32 off }
    src := { s.src with MARKPOS := s.src.POS, MARK_V := true }
    ev := if s.cfg.PROBE_LATE.toNat < off then s.ev ++ [.probeLate off] else s.ev }

/-! ### Frame header -/

/-- The state after `SYNC` has met the sync word (42_frame_header R191): the sync word, the key flag, the first region
start. -/
def State.afterSync (s : State) (d : Depth) : State :=
  let s1 := s.consume d d.bits
  (s1.setBr { s1.br with KEYP := s.bitAt d (d.bits - 1) }).afterRegionStart d true

/-- The state after `CONTINUITY_UPDATE` (42_frame_header R197). -/
def State.afterContinuity (s : State) (idx : Nat) (df : Bool) : State :=
  (s.setCont ⟨true, idx, true, df⟩).setEv
    (s.ev ++
      (if s.cont.LASTIDX_V = true ∧ idx ≠ s.cont.LASTIDX + s.par.tcStep
        then [.tcDiscont (s.cont.LASTIDX + s.par.tcStep) idx] else []) ++
      (if s.cont.LASTDROP_V = true ∧ s.cont.LASTDROP ≠ df
        then [if df then .dropOn else .dropOff] else []))

/-- The state after a timecode block with these fields (42_frame_header R195). -/
def State.afterTimecode (s : State) (fields : List ((TcField × Nat) × Nat)) : State :=
  let t : TcRegs := s.tc.storeAll fields
  if t.TC_HT = 3 ∧ t.TC_HU = 15 then
    ((s.setTc { t with TCVALID := false }).setCont { s.cont with LASTIDX_V := false, LASTDROP_V := false }).setEv
      (s.ev ++ [.tcInvalid])
  else
    (s.setTc { t with TCVALID := true, FRAMEIDX := t.frameIndex }).afterContinuity t.frameIndex t.TC_DF

/-- The state after `TIMECODE` (42_frame_header R195): the fields of `TC_LAYOUT` stand one after another in the stream. -/
def State.afterTimecodeBlock (s : State) (d : Depth) : State :=
  (s.consume d s.par.tcLayout.bits).afterTimecode (s.layoutFields d 0 s.par.tcLayout)

/-- The metadata header up to the program-configuration code (42_frame_header R192). -/
def State.headerBegun (s : State) (mdid : BitVec 4) (size : BitVec 10) (pcfgc : BitVec 6) : State :=
  s.setFr { s.fr with MDID := mdid, MDSIZE := size, PCFGC := pcfgc }

/-- A legal program-configuration code resolved (42_frame_header R192, 45_progconfig R270). -/
def State.configured (s : State) (pcfgc : BitVec 6) : State :=
  s.setFr { s.fr with
    NCH := BitVec.ofNat 4 (s.pcfgRow pcfgc).1.val, NPROG := BitVec.ofNat 4 (s.pcfgRow pcfgc).2.val }

/-- The state after the metadata header fields, all legal (42_frame_header R192). -/
def State.afterHeader (s : State) (mdid : BitVec 4) (size : BitVec 10) (pcfgc : BitVec 6) (frc : BitVec 4) : State :=
  let t := (s.headerBegun mdid size pcfgc).configured pcfgc
  t.setFr { t.fr with FRC := frc, LFR := decide (1 ≤ frc.toNat ∧ frc.toNat ≤ 5) }

/-- The metadata header in the stream: id, size, program-configuration code, frame-rate code (30_encoding R99). -/
def State.headerId (s : State) (d : Depth) : BitVec 4 := BitVec.ofNat 4 (s.field d 0 4)
def State.headerSize (s : State) (d : Depth) : BitVec 10 := BitVec.ofNat 10 (s.field d 4 10)
def State.headerPcfg (s : State) (d : Depth) : BitVec 6 := BitVec.ofNat 6 (s.field d 14 6)
def State.headerFrc (s : State) (d : Depth) : BitVec 4 := BitVec.ofNat 4 (s.field d 20 4)

/-- The metadata header and the timecode block of the stream (42_frame_header R192, R195). -/
def State.afterMetadata (s : State) (d : Depth) : State :=
  ((s.consume d 24).afterHeader (s.headerId d) (s.headerSize d) (s.headerPcfg d) (s.headerFrc d)).afterTimecodeBlock d

/-- Bits of `FRAMEDIST` before the meter size (42_frame_header R198). -/
def FrameRegs.distBits (f : FrameRegs) : Nat := 10 * f.NCH.toNat + (if f.LFR then 8 else 0)

/-- Elements below a count from the stream, the others kept. -/
def fillArray {w : Nat} (count : Nat) (f : Nat → BitVec w) (old : Vector (BitVec w) 8) : Vector (BitVec w) 8 :=
  Vector.ofFn fun c => if c.val < count then f c.val else old[c]

/-- The state after `FRAMEDIST` (42_frame_header R198). -/
def State.afterFramedist (s : State) (d : Depth) : State :=
  ((s.consume d (s.fr.distBits + 8)).setCh
    { s.ch with CHSZ := fillArray s.fr.NCH.toNat (fun c => BitVec.ofNat 10 (s.field d (10 * c) 10)) s.ch.CHSZ }).setFr
    { s.fr with
      EXTSZ := if s.fr.LFR then BitVec.ofNat 8 (s.field d (10 * s.fr.NCH.toNat) 8) else s.fr.EXTSZ
      METSZ := BitVec.ofNat 8 (s.field d s.fr.distBits 8) }

/-- The event of one description character, if it publishes a run (42_frame_header R200). -/
def DescText.published (t : DescText) (p : Fin 8) (ch : BitVec 8) : List Event :=
  if ch = 3 ∧ t.RUNOPEN = true then [.desc p t.RUN.length] else []

/-- The text registers after one character, by its class, a text holding at most `max` characters
(42_frame_header R200). -/
def DescText.after (max : Nat) (t : DescText) (ch : BitVec 8) : DescText :=
  if ch = 2 then { t with RUN := [], RUNOPEN := true }
  else if ch = 3 ∧ t.RUNOPEN = true then ⟨t.RUN, false, t.RUN, true⟩
  else if isPrintable ch = true ∧ t.RUNOPEN = true ∧ t.RUN.length < max then
    { t with RUN := t.RUN ++ [ch] }
  else t

/-- The state after `DESCCHAR` (42_frame_header R200). -/
def State.afterChar (s : State) (p : Fin 8) (ch : BitVec 8) : State :=
  (s.setDesc (vset s.desc p ((s.desc[p]).after s.par.descMax ch))).setEv (s.ev ++ (s.desc[p]).published p ch)

/-- The description character of program `p` in the stream (42_frame_header R199). -/
def State.charAt (s : State) (d : Depth) (p : Nat) : BitVec 8 := BitVec.ofNat 8 (s.field d (10 * p) 8)

/-- The state after `PROGMETA` (42_frame_header R199, R200). -/
def State.afterProgmeta (s : State) (d : Depth) : State :=
  (((s.consume d (10 * s.fr.NPROG.toNat)).setPg
    { DCHAR := fillArray s.fr.NPROG.toNat (s.charAt d) s.pg.DCHAR
      BWID := fillArray s.fr.NPROG.toNat (fun p => BitVec.ofNat 2 (s.field d (10 * p + 8) 2)) s.pg.BWID }).setDesc
    (Vector.ofFn fun p => if p.val < s.fr.NPROG.toNat then (s.desc[p]).after s.par.descMax (s.charAt d p) else s.desc[p])).setEv
    (s.ev ++ (idxRange 0 s.fr.NPROG.toNat).flatMap fun p => (s.desc[p]).published p (s.charAt d p))

/-- The state after `CHANMETA` (42_frame_header R201). -/
def State.afterChanmeta (s : State) (d : Depth) : State :=
  (s.consume d (25 * s.fr.NCH.toNat)).setCh
    { s.ch with
      REVID := fillArray s.fr.NCH.toNat (fun c => BitVec.ofNat 4 (s.field d (25 * c) 4)) s.ch.REVID
      BITPOOL := fillArray s.fr.NCH.toNat (fun c => BitVec.ofNat 1 (s.field d (25 * c + 4) 1)) s.ch.BITPOOL
      BGAIN := fillArray s.fr.NCH.toNat (fun c => BitVec.ofNat 10 (s.field d (25 * c + 5) 10)) s.ch.BGAIN
      EGAIN := fillArray s.fr.NCH.toNat (fun c => BitVec.ofNat 10 (s.field d (25 * c + 15) 10)) s.ch.EGAIN }

/-! ### Subsegments -/

/-- The state after one program's AC3 record has been stored (43_subsegments R224, R228). -/
def State.afterRecord (s : State) (base : Bool) (p : Fin 8) (r : Ac3Rec) : State :=
  (s.setRecs base (vset (s.recs base) p r)).setEv
    (s.ev ++ if 19 ≤ (r.get .datarate).toNat ∧ (r.get .datarate).toNat ≤ 30
      then [.ac3Reserved p .datarate (r.get .datarate).toNat] else [])

/-- The state after one program's AC3 block (43_subsegments R224): the fields of the layout in force stand one after
another in the stream. -/
def State.afterAc3Block (s : State) (d : Depth) (ext base : Bool) (p : Fin 8) : State :=
  (s.consume d (s.par.ac3Layout ext).bits).afterRecord base p
    { ((s.recs base)[p]).storeAll (s.layoutFields d 0 (s.par.ac3Layout ext)) with VALID := true, EXT := ext }

/-- The record of program `p` with its additional-information fields (43_subsegments R225). -/
def State.withAddbsi (s : State) (base : Bool) (p : Fin 8) (e : Bool) (len : BitVec 6) : State :=
  s.setRecs base (vset (s.recs base) p { (s.recs base)[p] with ADDBSIE := e, ADDBSIL := len })

/-- The state after `ADDBSI` (43_subsegments R225): 1 bit, or 7 bits and the stated number of bytes. -/
def State.afterAddbsi (s : State) (d : Depth) (base : Bool) (p : Fin 8) : State :=
  if s.bitAt d 0 then
    (s.consume d (7 + 8 * s.field d 1 6)).withAddbsi base p true (BitVec.ofNat 6 (s.field d 1 6))
  else (s.consume d 1).withAddbsi base p false 0

/-- The state after `AC3INFO` (43_subsegments R224): all blocks, then all additional-information groups. -/
def State.afterAc3info (s : State) (d : Depth) (ext base : Bool) : State :=
  (idxRange 0 s.fr.NPROG.toNat).foldl (fun t p => t.afterAddbsi d base p)
    ((idxRange 0 s.fr.NPROG.toNat).foldl (fun t p => t.afterAc3Block d ext base p) s)

/-- The state after the reconciliation of an interpreted sub-block of declared length `len` that used `used` bits, if
`SUBSEG_LEN_RECONCILE` asks for it (43_subsegments R222). -/
def State.afterReconcile (s : State) (d : Depth) (id : BitVec 4) (len : BitVec 12) (used : Nat) : State :=
  if s.par.subsegLenReconcile = false then s
  else if used < len.toNat then s.consume d (len.toNat - used)
  else if len.toNat < used then s.setEv (s.ev ++ [.subsegLen id len.toNat used])
  else s

/-- One more sub-block counted (10_state R38). -/
def State.counted (s : State) (base : Bool) : State :=
  s.setFr (if base then { s.fr with NSUBM := BitVec.ofNat 8 (min (s.fr.NSUBM.toNat + 1) 255) }
    else { s.fr with NSUBX := BitVec.ofNat 8 (min (s.fr.NSUBX.toNat + 1) 255) })

/-- The state after a sub-block whose header has been read (43_subsegments R222). -/
def State.afterSubBlock (s : State) (d : Depth) (base : Bool) (id : BitVec 4) (len : BitVec 12) : State :=
  if id = 1 ∨ (id = 2 ∧ base = true) then
    let s1 := s.afterAc3info d (id == 1) base
    (s1.afterReconcile d id len (s1.br.BITCNT - s.br.BITCNT)).counted base
  else (s.consume d len.toNat).counted base

/-- `SUBSEGLOOP(base)` leads from `s` to `t` (43_subsegments R222): an id 0 ends it; any other id is followed by a
length and a sub-block, and the loop goes on. -/
inductive SubWalk (d : Depth) (base : Bool) : State → State → Prop where
  | done (s : State) (h : s.field d 0 4 = 0) : SubWalk d base s (s.consume d 4)
  | block (s t : State) (h : s.field d 0 4 ≠ 0)
      (rest : SubWalk d base ((s.consume d 16).afterSubBlock d base (BitVec.ofNat 4 (s.field d 0 4))
        (BitVec.ofNat 12 (s.field d 4 12))) t) : SubWalk d base s t

/-- The end of a metadata segment after its loop (43_subsegments R220, R221). -/
def State.afterSegment (s : State) (d : Depth) (size : Nat) (r : Region) : State := (s.afterPad d size r).afterCrc d r

/-! ### Audio, meter, completion -/

/-- The number of samples of channels `lo .. hi-1` (44_audio_meter R250). -/
def State.sizeSum (s : State) (lo hi : Nat) : Nat := ((idxRange lo hi).map fun c => (s.ch.CHSZ[c]).toNat).sum

/-- The state after `AUDIOHALF` (44_audio_meter R250). -/
def State.afterHalf (s : State) (d : Depth) (lo hi : Nat) (r : Region) : State :=
  ((s.afterRegionStart d false).consume d (s.sizeSum lo hi * d.bits)).afterCrc d r

/-- The state after both halves (44_audio_meter R251, R252). -/
def State.afterHalves (s : State) (d : Depth) (r0 r1 : Region) : State :=
  (s.afterHalf d 0 (s.fr.NCH.toNat / 2) r0).afterHalf d (s.fr.NCH.toNat / 2) s.fr.NCH.toNat r1

/-- The meter values (44_audio_meter R253): all peaks, then all RMS values. -/
def State.afterMeters (s : State) (d : Depth) : State :=
  (s.consume d (20 * s.fr.NCH.toNat)).setCh
    { s.ch with
      PEAK := fillArray s.fr.NCH.toNat (fun c => BitVec.ofNat 10 (s.field d (10 * c) 10)) s.ch.PEAK
      RMS := fillArray s.fr.NCH.toNat
        (fun c => BitVec.ofNat 10 (s.field d (10 * s.fr.NCH.toNat + 10 * c) 10)) s.ch.RMS }

/-- The state after `METER` (44_audio_meter R253). -/
def State.afterMeter (s : State) (d : Depth) : State :=
  ((s.afterRegionStart d false).afterMeters d).afterSegment d s.fr.METSZ.toNat .meter

/-- The state after `COMPLETE` (44_audio_meter R258), the remainder not being negative. -/
def State.afterComplete (s : State) (d : Depth) : State :=
  (s.setBr { s.br with RES := 0, RESCNT := 0 }).setSrc
    { s.src with POS := s.src.POS + (s.expectedBytes d - s.br.BYTECNT) / s.sampleBytes * s.sampleBytes }

/-! ### A whole frame -/

/-- The header words and the sync word of a Dolby E burst of depth `d` at `POS` (41_burst R164, R167, R168,
42_frame_header R191). -/
structure State.BurstAhead (s : State) (d : Depth) : Prop where
  word1 : s.wordAt 0 = d.preamble1
  word2 : s.wordAt 1 = d.preamble2
  type28 : (burstOf (s.wordAt 2) (s.wordAt 3)).BI_DTYPE = 28
  even : s.cfg.STREAMS2 = true → (burstOf (s.wordAt 2) (s.wordAt 3)).BI_BITLEN.toNat / d.bits % 2 = 0
  sync : syncMatches d (BitVec.ofNat 24 (((s.afterPreamble d).afterBurst).field d 0 d.bits)) = true

/-- A legal metadata header at the reading position (42_frame_header R192, 45_progconfig R270). -/
structure State.HeaderAhead (s : State) (d : Depth) : Prop where
  pcfg : (s.headerPcfg d).toNat ≤ 23
  frcLow : 1 ≤ (s.headerFrc d).toNat
  frcHigh : (s.headerFrc d).toNat ≤ 8

/-- The state where the subsegment loop of a frame that begins at `s` starts (41_burst R164). -/
def State.atSubsegs (s : State) (d : Depth) : State :=
  (((((((s.afterPreamble d).afterBurst).afterSync d).afterMetadata d).afterFramedist d).afterProgmeta d).afterChanmeta d)

/-- The state where the extension loop of a frame starts, `s` being the end of its metadata loop (43_subsegments R220,
R221, 44_audio_meter R251). -/
def State.atExtension (s : State) (d : Depth) : State :=
  (((s.afterSegment d s.fr.MDSIZE.toNat .metadata).afterHalves d .audio0 .audio1).afterRegionStart d false)

/-- The state where the meter segment starts (41_burst R164), `s` being the end of the metadata loop and `x` that of the
extension loop. -/
def State.atMeter (s x : State) (d : Depth) : State :=
  if s.fr.LFR then (x.afterSegment d x.fr.EXTSZ.toNat .extMeta).afterHalves d .extAudio0 .extAudio1
  else (s.afterSegment d s.fr.MDSIZE.toNat .metadata).afterHalves d .audio0 .audio1

/-- `ST` and `STATUS` after a command that ends without a raise (41_burst R160). -/
def Sequencer.done : Sequencer := ⟨.idle, false, true, 0, 0, 0⟩

/-- Entering a sequencer state (10_state R27, R30). -/
def State.entered (s : State) (st : SeqState) : State := s.setSeq { s.seq with ST := st, BUSY := true }

/-- The end of a command whose `STATUS` error fields are kept (41_burst R160). -/
def State.finished (s : State) : State := s.setSeq { s.seq with ST := .idle, BUSY := false, DONE := true }

/-- The state after `CLEAR`, apart from `STATUS` (41_burst R162, 70_reset R322). -/
def State.afterClear (s : State) : State :=
  let t := s.afterPayloadInit
  t.setBr { t.br with DEPTH := none }

/-! ### Errors -/

/-- The state after an error of kind `k` and sub-code `n` has been taken (60_exceptions R283, 10_state R30): the latch,
and the returned error value (log 5). -/
def State.raisedAs (s : State) (e : ErrVal) (k : BitVec 3) (n : BitVec 4) : State :=
  (s.setSeq ⟨.idle, false, false, k, n, s.seq.ST.code⟩).setLastErr (some (e, s.seq.ST))

/-! ### Several steps, several characters -/

/-- `n` steps. -/
def stepMany : Nat → State → Result
  | 0, s => .next s
  | n + 1, s =>
    match step s with
    | .next t => stepMany n t
    | .fault f => .fault f
    | .refused r => .refused r

/-- The description characters of one program, one `DESCCHAR` each (42_frame_header R200). -/
def feedChars (p : Fin 8) : List (BitVec 8) → State → Result
  | [], s => .next s
  | c :: cs, s =>
    match exec (.descchar p c) s with
    | .next t => feedChars p cs t
    | .fault f => .fault f
    | .refused r => .refused r

end Sys2Proof.Machine
end

