-- ==== Sys2Proof/Certificates/Slice0/Obligations.lean ====
section
/-! DEFINITION. The statements for the provers. An equation `exec i s = .next t` with `t` written from `s` says the
result, that the instruction completes, and its frame: what `t` does not change is unchanged, the stream included. The
premise `t.src.POS ≤ s.src.MEM.len` says that the words the operation takes are in the stream. The parameters of
00_scope R7 are the state's argument `par` (log 31): a statement holds for every value of them, or asks only that they be
admissible (`Params.Ok`). -/

open Sys2Proof Sys2Proof.Machine

/-! ### Encoding and decoding -/

/-- Decoding the code of a well-formed instruction gives the instruction back, whatever the layouts (30_encoding R92 to
R114, 42_frame_header R196, 43_subsegments R226, R227). -/
def Obligations.DecodeEncode : Prop :=
  ∀ (par : Params) (i : Instr) (u : Code), i.wellFormed par = true → encode par i = some u → decode par u = .ok i

/-- A code that decodes is the code of the instruction it decodes to, which is well formed, whatever the layouts: no word
has two readings and no bit of a word is dropped (30_encoding R92 to R114, 42_frame_header R196, 43_subsegments R226,
R227). -/
def Obligations.EncodeDecode : Prop :=
  ∀ (par : Params) (u : Code) (i : Instr), decode par u = .ok i → i.wellFormed par = true ∧ encode par i = some u

/-- A few words written out from the encoding tables and what they stand for (10_state R26, 30_encoding R92 to R106), the
block of an AC3 program by the default layout of 43_subsegments R226 (its widths are the spec's default, log 10). That
`ST = 15` is no instruction and is rejected by the name `stUnused` is the model's form of 10_state R29 (log 16). -/
def Obligations.DecodeWords : Prop :=
  decode defaultParams ⟨.cmd, 3, 0b010⟩ = .ok .probe ∧
  decode defaultParams ⟨.state, 4, 0b1001⟩ = .ok .audio ∧
  decode defaultParams ⟨.preamble1, 32, 0x6F872000⟩ = .ok .pa20 ∧
  decode defaultParams ⟨.burst1, 32, 0b00100101001111000000000000000000⟩ = .ok (.bi1 1 5 0 1 28 0) ∧
  decode defaultParams ⟨.sync .d24, 24, 0b000001111000100010001111⟩ = .ok (.sync24 1) ∧
  decode defaultParams ⟨.mdhdr, 24, 0b000000000100000100100110⟩ = .ok (.mdhdr 0 16 18 6) ∧
  decode defaultParams ⟨.cmeta 3, 25, 0b0011111111111110000000000⟩ = .ok (.cmeta 3 3 1 1023 0) ∧
  decode defaultParams ⟨.subHeader false, 16, 0b0010000000001010⟩ = .ok (.subskip2x 10) ∧
  decode defaultParams ⟨.ac3Block false true 0, 42, 0b011100001110110101110110000000001110010110⟩ =
    .ok (.ac3base true 0 [14, 0, 7, 1, 2, 2, 1, 27, 0, 0, 1, 25, 1, 1, 0]) ∧
  decode defaultParams ⟨.addbsi true 0, 7, 0b1000001⟩ = .ok (.addbsi1 true 0 1) ∧
  decode defaultParams ⟨.state, 4, 0b1111⟩ = .error .stUnused

/-! ### The step -/

/-- A step runs the decoded instruction: the operation of `ST` when nothing waits at the port, or when what waits is no
register access and `ST` is not `IDLE`; a command code written to `CMD`; the unit read at a slot; an operation asked for
by name. Around the operation of the state BURSTINFO, if it does not raise, the step also does what `READ_FRAME` does before
the next state, `passBurst` (41_burst R164; BurstinfoAccepts and BurstTraps say what). The port and the requests are the
model's own (log 1, 7), and so is the cut of `READ_FRAME` into steps (log 27). -/
def Obligations.StepRunsDecoded : Prop :=
  (∀ (s : State) (i : Instr), (s.port = [] ∨ ∃ r rest, s.port = r :: rest ∧ r.isAccess = false ∧ s.seq.ST ≠ .idle) →
    decode s.par ⟨.state, 4, s.seq.ST.code.toNat⟩ = .ok i →
    (i ≠ .burstinfo → step s = exec i s) ∧
    (i = .burstinfo → ∃ t, exec .burstinfo s = .next t ∧
      (t.seq.ST = .sync → step s = passBurst t) ∧ (t.seq.ST ≠ .sync → step s = .next t))) ∧
  (∀ (s : State) (i : Instr) (v : BitVec 32) (rest : List Request), s.port = .write 5 v :: rest →
    decode s.par ⟨.cmd, 3, v.toNat % 8⟩ = .ok i → step s = exec i (s.setPort rest)) ∧
  (∀ (s t : State) (i : Instr) (slot : Slot) (u : Code) (rest : List Request), s.port = .recognise slot :: rest →
    s.seq.ST = .idle → fetchUnit slot (s.setPort rest) = .ok u t → decode t.par u = .ok i → step s = exec i t) ∧
  (∀ (s : State) (i : Instr) (rest : List Request), s.port = .invoke i :: rest → s.seq.ST = .idle →
    step s = exec i (s.setPort rest))

/-- Running `READ_FRAME` one sequencer state per step, each state writing its successor, ends where the whole command
ends (10_state R27, 41_burst R164). The spec gives DEFD no stepping mechanism: the request `stepped` is the model's
(log 7), and so is the cut of `READ_FRAME` into states, with its tests after `BURSTINFO` in that state (log 27). -/
def Obligations.SteppedIsWhole : Prop :=
  ∀ s : State, s.seq.ST = .idle → s.seq.BUSY = false →
    stepMany 14 (s.setPort [.stepped 1#3]) = exec .readFrame (s.setPort [])

/-! ### Reset and invariants -/

/-- The values after power-on reset (70_reset R320, R321), and beside them the parameters at the values 00_scope R7 gives,
the tables of 42_frame_header R196, 43_subsegments R226, R227 and 45_progconfig R271 row by row; that the parameters stand
in the state is the model's choice (log 31), and their values there are the spec's defaults (logs 8 to 11). -/
def Obligations.ResetValues : Prop :=
  State.reset.br = ⟨none, 0, 0, 0, false, 0, 0, 0⟩ ∧
  State.reset.bi = ⟨0, 0, 0, 0, 0, 0⟩ ∧
  State.reset.seq = ⟨.idle, false, false, 0, 0, 0⟩ ∧
  State.reset.cfg = ⟨false, false, 9437184, 486, 0⟩ ∧
  State.reset.fr = ⟨0, 0, 0, 0, 0, 0, false, 0, 0, 0, 0⟩ ∧
  State.reset.tc = ⟨0, 0, 0, 0, 0, 0, 0, 0, false, false, 0⟩ ∧
  (∀ c : Fin 8, State.reset.ch.CHSZ[c] = 0 ∧ State.reset.ch.REVID[c] = 0 ∧ State.reset.ch.BITPOOL[c] = 0 ∧
    State.reset.ch.BGAIN[c] = 0 ∧ State.reset.ch.EGAIN[c] = 0 ∧ State.reset.ch.PEAK[c] = 0 ∧
    State.reset.ch.RMS[c] = 0) ∧
  (∀ p : Fin 8, State.reset.pg.DCHAR[p] = 0 ∧ State.reset.pg.BWID[p] = 0 ∧
    State.reset.ac3m[p] = Ac3Rec.reset ∧ State.reset.ac3x[p] = Ac3Rec.reset ∧
    State.reset.desc[p] = ⟨[], false, [], false⟩) ∧
  State.reset.cont = ⟨false, 0, false, false⟩ ∧
  State.reset.src.POS = 0 ∧ State.reset.src.MARKPOS = 0 ∧ State.reset.src.MARK_V = false ∧
  State.reset.ev = [] ∧
  State.reset.par.keyClearBeforeRead = true ∧ State.reset.par.keyPerRegion = true ∧
  State.reset.par.crcClearAtRegionStart = true ∧ State.reset.par.crcClearAfterCheck = true ∧
  State.reset.par.segOverrunFaults = false ∧ State.reset.par.subsegLenReconcile = true ∧
  State.reset.par.tcStep = 2 ∧ State.reset.par.descMax = 32 ∧
  State.reset.par.tcLayout = [(.unused, 10), (.ht, 2), (.hu, 4), (.unused, 9), (.mt, 3), (.mu, 4), (.unused, 9), (.st, 3),
    (.su, 4), (.unused, 9), (.df, 1), (.ft, 2), (.fu, 4)] ∧
  State.reset.par.ac3LayoutBase = [(.datarate, 5), (.bsmod, 3), (.acmod, 3), (.cmixlev, 2), (.surmixlev, 2), (.dsurmod, 2),
    (.lfeon, 1), (.dialnorm, 5), (.langcode, 1), (.langcod, 8), (.audprodie, 1), (.mixlevel, 5), (.roomtyp, 2),
    (.copyrightb, 1), (.origbs, 1)] ∧
  State.reset.par.ac3LayoutExt = State.reset.par.ac3LayoutBase ++ [(.dmixmod, 2), (.ltrtcmixlev, 3), (.ltrtsurmixlev, 3),
    (.lorocmixlev, 3), (.lorosurmixlev, 3), (.dsurexmod, 2), (.dheadphonmod, 2), (.adconvtyp, 1), (.hpfon, 1),
    (.lpfon, 1), (.atton, 1), (.compre, 1), (.compr1, 8), (.dynrnge, 1), (.dynrng1, 8), (.dynrng2, 8), (.dynrng3, 8),
    (.dynrng4, 8)] ∧
  State.reset.par.pcfgTable.toList = [(8, 2), (8, 3), (8, 2), (8, 3), (8, 4), (8, 5), (8, 4), (8, 5), (8, 6), (8, 7), (8, 8),
    (6, 1), (6, 2), (6, 3), (6, 3), (6, 4), (6, 5), (6, 6), (4, 1), (4, 2), (4, 3), (4, 4), (8, 1), (8, 1)]

/-- The invariant holds after reset; the empty stream there is the model's choice (log 2), as is the place of the
parameters, at their defaults (logs 8 to 11, 31). -/
def Obligations.ResetInv : Prop := State.reset.Inv

/-- Every step keeps the invariant. -/
def Obligations.StepKeepsInv : Prop :=
  ∀ s t : State, s.Inv → step s = .next t → t.Inv

/-- No instruction enters `ST = 15`, and a step that finds the machine there with nothing at the port faults
(10_state R29; the fault is the model's, log 16). -/
def Obligations.UnusedStateNeverEntered : Prop :=
  (∀ (i : Instr) (s t : State), s.seq.ST ≠ .unused → exec i s = .next t → t.seq.ST ≠ .unused) ∧
  (∀ s t : State, s.seq.ST ≠ .unused → step s = .next t → t.seq.ST ≠ .unused) ∧
  (∀ s : State, s.seq.ST = .unused → s.port = [] → step s = .fault .stUnused)

/-- The stream is never written (00_scope R13, 10_state R42, 20_memory R62, R78), nor are the parameters, which are no
state of the machine (10_state R20; that they stand in the model's state is log 31). -/
def Obligations.StreamNeverWritten : Prop :=
  (∀ (i : Instr) (s t : State), exec i s = .next t → t.src.MEM = s.src.MEM ∧ t.par = s.par) ∧
  (∀ s t : State, step s = .next t → t.src.MEM = s.src.MEM ∧ t.par = s.par)

/-- The event trace only grows (10_state R43, 60_exceptions R290). -/
def Obligations.TraceOnlyGrows : Prop :=
  (∀ (i : Instr) (s t : State), exec i s = .next t → ∃ es, t.ev = s.ev ++ es) ∧
  (∀ s t : State, step s = .next t → ∃ es, t.ev = s.ev ++ es)

/-- No instruction writes the registers of the host, but for `PROBE_OFF`, which only the probe writes (10_state R31,
R32). -/
def Obligations.HostRegistersKept : Prop :=
  ∀ (i : Instr) (s t : State), exec i s = .next t →
    t.cfg.STREAMS2 = s.cfg.STREAMS2 ∧ t.cfg.PACK3 = s.cfg.PACK3 ∧ t.cfg.PROBE_WINDOW = s.cfg.PROBE_WINDOW ∧
    t.cfg.PROBE_LATE = s.cfg.PROBE_LATE ∧
    (i ≠ .probe → i ≠ .probescan → t.cfg.PROBE_OFF = s.cfg.PROBE_OFF)

/-- The continuity registers are written by the timecode instructions and what runs them, the text registers by the
description instructions and what runs them, and by nothing else (10_state R39, R40). -/
def Obligations.CrossFrameWriters : Prop :=
  ∀ (i : Instr) (s t : State), exec i s = .next t →
    (i ≠ .readFrame → i ≠ .metadata → i ≠ .timecode → i ≠ .continuityInvalidate → (∀ b, i ≠ .tcblock b) →
      (∀ idx df, i ≠ .continuityUpdate idx df) → t.cont = s.cont) ∧
    (i ≠ .readFrame → i ≠ .progmeta → (∀ p c b, i ≠ .pmeta p c b) → (∀ p, i ≠ .nul p) → (∀ p, i ≠ .stx p) →
      (∀ p, i ≠ .etx p) → (∀ p c, i ≠ .print p c) → (∀ p c, i ≠ .charOther p c) → (∀ p c, i ≠ .descchar p c) →
      t.desc = s.desc)

/-- No instruction ever faults, the fuel of the loops included (60_exceptions R297; log 24), and the only stops are four
named refusals: no depth, a width no rule requests, a full residual buffer, a reset without a mark (logs 12 to 15). -/
def Obligations.OnlyNamedStops : Prop :=
  ∀ (i : Instr) (s : State),
    (∃ t, exec i s = .next t) ∨ exec i s = .refused .noDepth ∨ (∃ n, exec i s = .refused (.getbitsWidth n)) ∨
      exec i s = .refused .residualFull ∨ exec i s = .refused .noMark

/-! ### Host commands -/

/-- `NOP` changes no state at all (41_burst R161, the spec's decision D3). -/
def Obligations.NopChangesNothing : Prop := ∀ s : State, exec .nop s = .next s

/-- The patterns without an effect of their own leave the state as it is: the reserved commands (30_encoding R113), the
idle state (10_state R27), the end of a subsegment loop (43_subsegments R222), an audio sample that has been pulled
(44_audio_meter R250). -/
def Obligations.NoEffectPatterns : Prop :=
  ∀ s : State, exec .cmdReserved5 s = .next s ∧ exec .cmdReserved6 s = .next s ∧ exec .cmdReserved7 s = .next s ∧
    exec .idle s = .next s ∧ (∀ base, exec (.subend base) s = .next s) ∧ (∀ a, exec (.audiosample16 a) s = .next s) ∧
    (∀ a, exec (.audiosample20 a) s = .next s) ∧ (∀ a, exec (.audiosample24 a) s = .next s)

/-- A command while `BUSY = 1` is ignored (41_burst R160). -/
def Obligations.BusyIgnoresCommand : Prop :=
  ∀ s : State, s.seq.BUSY = true →
    exec .readFrame s = .next s ∧ exec .probe s = .next s ∧ exec .align s = .next s ∧ exec .clear s = .next s

/-- `CLEAR` and `PAYLOAD_INIT` (41_burst R160, R162, 70_reset R322, 40_bitreader R132): what they reset, and nothing
else. -/
def Obligations.ClearResets : Prop :=
  (∀ s : State, exec .payloadInit s = .next s.afterPayloadInit) ∧
  (∀ s : State, s.seq.BUSY = false →
    exec .clear s = .next ((s.afterClear.setSeq Sequencer.done).setLastErr none))

/-- `SrcAlign` and `ALIGN` go to the first nonzero byte at or after `POS`, or to the end of the stream, and change
nothing else but, for the command, `STATUS` (20_memory R66, 41_burst R160, R163). With two streams R66 leaves the result to
the Sample Source; the same formula there is the model's reading (log 19). -/
def Obligations.AlignFindsByte : Prop :=
  ∀ s : State, s.src.POS ≤ s.src.MEM.len →
    ∃ a, s.src.POS ≤ a ∧ a ≤ s.src.MEM.len ∧ (∀ x, s.src.POS ≤ x → x < a → s.src.MEM.byteAt x = 0) ∧
      (a < s.src.MEM.len → s.src.MEM.byteAt a ≠ 0) ∧
      exec .srcAlign s = .next (s.setSrc { s.src with POS := a }) ∧
      (s.seq.BUSY = false →
        exec .align s = .next (((s.setSrc { s.src with POS := a }).setSeq Sequencer.done).setLastErr none))

/-- A whole frame: where the burst, its header and its subsegment loops are legal, no segment overrun is a fault, the
declared length is enough and the words are in the stream, `READ_FRAME` completes in the state the rules of its states give
one after another, with `DONE` set (41_burst R160, R164, 44_audio_meter R258). Keys, extension segments, sub-blocks and
both stream modes included, for every admissible value of the parameters (00_scope R7): the policies, the AC3 layouts and
the timecode layout are arguments, no default is assumed (logs 8, 10, 11, 31). -/
def Obligations.ReadFrameCompletes : Prop :=
  ∀ (s m x : State) (d : Depth), s.seq.BUSY = false → s.par.Ok → s.BurstAhead d →
    (((s.afterPreamble d).afterBurst).afterSync d).HeaderAhead d →
    SubWalk d true (s.atSubsegs d) m →
    m.PadOk d m.fr.MDSIZE.toNat →
    (m.fr.LFR = true → SubWalk d false (m.atExtension d) x ∧ x.PadOk d x.fr.EXTSZ.toNat) →
    (((m.atMeter x d).afterRegionStart d false).afterMeters d).PadOk d (m.atMeter x d).fr.METSZ.toNat →
    ((m.atMeter x d).afterMeter d).br.BYTECNT ≤ ((m.atMeter x d).afterMeter d).expectedBytes d →
    (((m.atMeter x d).afterMeter d).afterComplete d).src.POS ≤ s.src.MEM.len →
    exec .readFrame s =
      .next (((((m.atMeter x d).afterMeter d).afterComplete d).setSeq Sequencer.done).setLastErr none)

/-- From every state in which no command runs, with admissible parameters, `READ_FRAME` and `PROBE` come to an end, idle,
either done without error or with one error of an aborting kind latched (41_burst R160, 60_exceptions R283, R286, R297). -/
def Obligations.CommandsEnd : Prop :=
  ∀ (i : Instr) (s : State), (i = .readFrame ∨ i = .probe) → s.seq.BUSY = false → s.par.Ok →
    ∃ t, exec i s = .next t ∧
      ((t.seq = Sequencer.done ∧ t.lastErr = none) ∨
        ∃ e st, t.lastErr = some (e, st) ∧ errKind e ≠ .integrity ∧
          t.seq = ⟨.idle, false, false, kindCode (errKind e), errSub e, st.code⟩)

/-! ### Bit reader -/

/-- `GETBITS(n)` delivers the next `n` bits of the logical bitstream and leaves the state `consume` (40_bitreader R134,
10_state R28). -/
def Obligations.GetbitsDelivers : Prop :=
  ∀ (s : State) (d : Depth) (n : Nat), s.Ready d → 1 ≤ n → n ≤ 32 → (s.consume d n).src.POS ≤ s.src.MEM.len →
    exec (.getbits n) s = .next ((s.consume d n).setRet (.num (s.field d 0 n)))

/-- `GETBITS(n)` equals `n` calls of `GETBITS(1)`, most significant first, with the same final state (40_bitreader
R134). -/
def Obligations.GetbitsIsSerial : Prop :=
  ∀ (s t : State) (n : Nat) (v : BitVec n), getbitsOp n s = .ok v t → serialBits n 0 s = .ok v.toNat t

/-- Where `GETBITS(n)` does not deliver: past the end of the stream it raises `MID_FIELD`, and the words that were there
stay pulled and folded (40_bitreader R134, 60_exceptions R284); a width no rule requests, a machine without a depth and a
`PULLWORD` that would overfill the residual buffer stop by name (40_bitreader R130, R134, 10_state R22; the refusals are the
model's, logs 12 to 14). -/
def Obligations.GetbitsTraps : Prop :=
  (∀ (s : State) (d : Depth) (n : Nat), s.Ready d → 1 ≤ n → n ≤ 32 → s.src.POS ≤ s.src.MEM.len →
    s.src.MEM.len < (s.consume d n).src.POS →
    exec (.getbits n) s = .next ((s.pulled d ((s.src.MEM.len - s.src.POS) / s.sampleBytes)).latch .midField)) ∧
  (∀ (s : State) (n : Nat), ¬(1 ≤ n ∧ n ≤ 32) → exec (.getbits n) s = .refused (.getbitsWidth n)) ∧
  (∀ (s : State) (n : Nat), 1 ≤ n → n ≤ 32 → s.br.DEPTH = none → exec (.getbits n) s = .refused .noDepth) ∧
  (∀ s : State, s.br.DEPTH = none → exec .pullword s = .refused .noDepth) ∧
  (∀ (s : State) (d : Depth), s.br.DEPTH = some d → 55 < s.br.RESCNT + d.bits →
    exec .pullword s = .refused .residualFull)

/-- `SKIPBITS(k)` and a skipped sub-block consume exactly `k` bits; the chunks do not show (40_bitreader R135,
43_subsegments R223). -/
def Obligations.SkipConsumes : Prop :=
  (∀ (s : State) (d : Depth) (k : Nat), s.Ready d → (s.consume d k).src.POS ≤ s.src.MEM.len →
    exec (.skipbits k) s = .next (s.consume d k)) ∧
  (∀ (s : State) (d : Depth) (len : BitVec 12), s.Ready d → (s.consume d len.toNat).src.POS ≤ s.src.MEM.len →
    exec (.skipsubseg len) s = .next (s.consume d len.toNat))

/-- `PULLWORD` (40_bitreader R133): the sample is the top `DEPTH` bits of the word exclusive-or the key, it is folded
and appended, in a residual buffer with room for it (10_state R22); at the end of the stream `MID_FIELD` and nothing
written but what an error writes. -/
def Obligations.PullwordResult : Prop :=
  ∀ (s : State) (d : Depth), s.br.DEPTH = some d → s.br.RESCNT + d.bits ≤ 55 →
    (s.src.POS + s.sampleBytes ≤ s.src.MEM.len →
      exec .pullword s =
        .next ((s.setBr { s.br with
          CRC := crcFold d s.br.CRC (s.sampleAt d 0)
          RES := (s.br.RES <<< d.bits) ||| (s.sampleAt d 0).setWidth 64
          RESCNT := s.br.RESCNT + d.bits
          BYTECNT := s.br.BYTECNT + s.sampleBytes }).setSrc { s.src with POS := s.src.POS + s.sampleBytes }) ∧
        ∀ j, (s.sampleAt d 0).getLsbD j =
          (decide (j < d.bits) && (((s.wordAt 0).getLsbD (32 - d.bits + j)) ^^ s.br.KEY.getLsbD j))) ∧
    (s.src.MEM.len < s.src.POS + s.sampleBytes → exec .pullword s = .next (s.latch .midField))

/-- `CRCFOLD(v)` leaves the remainder of `CRC * x^DEPTH + v` by `G` over GF(2) and changes nothing else
(40_bitreader R131). -/
def Obligations.CrcFoldIsRemainder : Prop :=
  ∀ (s : State) (d : Depth) (v : Sample), s.br.DEPTH = some d → v.toNat < 2 ^ d.bits →
    ∃ (r : BitVec 16) (q : Nat), exec (.crcfold v) s = .next (s.setBr { s.br with CRC := r }) ∧
      (s.br.CRC.setWidth 40 <<< d.bits) ^^^ v.setWidth 40 = polyTimesG q d.bits ^^^ r.setWidth 40

/-- The codeword of a region: folded after the region it brings the register to 0, and no other value below `2^16` does
(40_bitreader R139). -/
def Obligations.CodewordCloses : Prop :=
  ∀ (d : Depth) (r : BitVec 16), (codewordOf d r).toNat < 2 ^ 16 ∧ crcFold d r (codewordOf d r) = 0 ∧
    ∀ c : Sample, c.toNat < 2 ^ 16 → crcFold d r c = 0 → c = codewordOf d r

/-- Flipping one bit of one sample of a region that checks, its codeword included, leaves a register that is not 0
(40_bitreader R139). -/
def Obligations.SingleBitDetected : Prop :=
  ∀ (d : Depth) (before after : List Sample) (v : Sample) (j : Nat), j < d.bits → v.toNat < 2 ^ d.bits →
    (∀ w ∈ before, w.toNat < 2 ^ d.bits) → (∀ w ∈ after, w.toNat < 2 ^ d.bits) →
    crcOf d (before ++ v :: after) = 0 → crcOf d (before ++ (v ^^^ (1#24 <<< j)) :: after) ≠ 0

/-- `REGION_START(first)`: the key word, if the frame has keys and the region has one, is read; the counters of the region
are cleared (40_bitreader R136). For every value of `KEY_CLEAR_BEFORE_READ`, `KEY_PER_REGION` and
`CRC_CLEAR_AT_REGION_START` (00_scope R7; logs 8, 31). -/
def Obligations.RegionStartResult : Prop :=
  ∀ (s : State) (d : Depth) (first : Bool), s.Ready d → (s.afterRegionStart d first).src.POS ≤ s.src.MEM.len →
    exec (.regionStart first) s = .next (s.afterRegionStart d first)

/-- `PADSEG` and `CRCCHECK` (40_bitreader R137, R138): padding up to the declared size; an overrun warns or, by
`SEG_OVERRUN_POLICY`, raises `SEG_OVERRUN`; the codeword is pulled and folded, a register that is not 0 only warns, and
`CRC_CLEAR_AFTER_CHECK` says whether it is cleared. For every value of the policies (00_scope R7; logs 8, 31). -/
def Obligations.SegmentEndResult : Prop :=
  (∀ (s : State) (d : Depth) (size : BitVec 10) (r : Region), s.Ready d →
    (s.PadOk d size.toNat → (s.afterPad d size.toNat r).src.POS ≤ s.src.MEM.len →
      exec (.padseg size r) s = .next (s.afterPad d size.toNat r)) ∧
    (s.par.segOverrunFaults = true → size.toNat * d.bits < s.br.BITCNT →
      exec (.padseg size r) s = .next (s.latch (.segOverrun r)))) ∧
  (∀ (s : State) (d : Depth) (r : Region), s.Ready d → (s.afterCrc d r).src.POS ≤ s.src.MEM.len →
    exec (.crccheck r) s = .next (s.afterCrc d r))

/-- A key word and a codeword that have been read take effect at every depth, from every state (40_bitreader R136,
R138), for every value of the policies that clear the CRC register (00_scope R7; logs 8, 31). That these patterns act on
words already read is the model's cut (log 23). -/
def Obligations.KeyAndCodewordPatterns : Prop :=
  ∀ s : State,
    (∀ k, exec (.keyw16 k) s = .next (s.setBr { s.br with KEY := k.setWidth 24 }).regionBegun) ∧
    (∀ k, exec (.keyw20 k) s = .next (s.setBr { s.br with KEY := k.setWidth 24 }).regionBegun) ∧
    (∀ k, exec (.keyw24 k) s = .next (s.setBr { s.br with KEY := k }).regionBegun) ∧
    (∀ r c, exec (.crcw16 r c) s = .next (s.afterCodeword r (c.setWidth 24))) ∧
    (∀ r c, exec (.crcw20 r c) s = .next (s.afterCodeword r (c.setWidth 24))) ∧
    (∀ r c, exec (.crcw24 r c) s = .next (s.afterCodeword r c))

/-! ### Burst layer -/

/-- The words of the burst layer: preamble word 1 selects a depth, its companion sets `DEPTH`, any other companion is
`BAD_PREAMBLE2`, and the burst-info words fill the six registers and warn (41_burst R167, R168). The selected depth is
held in the model's field `pd` (log 5). -/
def Obligations.BurstPatterns : Prop :=
  ∀ s : State,
    exec .pa16 s = .next (s.setPd (some .d16)) ∧ exec .pa20 s = .next (s.setPd (some .d20)) ∧
    exec .pa24 s = .next (s.setPd (some .d24)) ∧
    (s.pd = some .d16 → exec .pb16 s = .next (s.setBr { s.br with DEPTH := some .d16 })) ∧
    (s.pd = some .d20 → exec .pb20 s = .next (s.setBr { s.br with DEPTH := some .d20 })) ∧
    (s.pd = some .d24 → exec .pb24 s = .next (s.setBr { s.br with DEPTH := some .d24 })) ∧
    (s.pd ≠ some .d16 → exec .pb16 s = .next (s.latch (.badPreamble2 0x4E1F0000))) ∧
    (s.pd ≠ some .d20 → exec .pb20 s = .next (s.latch (.badPreamble2 0x54E1F000))) ∧
    (s.pd ≠ some .d24 → exec .pb24 s = .next (s.latch (.badPreamble2 0xA54E1F00))) ∧
    (∀ n dtd e m t r, exec (.bi1 n dtd e m t r) s =
      .next ((s.setBi ⟨n, dtd, e, m, t, s.bi.BI_BITLEN⟩).setEv (s.ev ++ burstWarnings dtd m t))) ∧
    (∀ len r, exec (.bi2 len r) s = .next (s.setBi { s.bi with BI_BITLEN := len }))

/-- `PREAMBLE` on the two words of a depth sets that depth (41_burst R167, 10_state R27). -/
def Obligations.PreambleSetsDepth : Prop :=
  ∀ (s : State) (d : Depth), s.wordAt 0 = d.preamble1 → s.wordAt 1 = d.preamble2 →
    (s.afterPreamble d).src.POS ≤ s.src.MEM.len →
    exec .preamble s = .next ((s.afterPreamble d).entered .burstinfo)

/-- `BURSTINFO` fills the six registers and warns, whatever the fields, with or without a depth (41_burst R168, 10_state
R27). Then, in a step of the machine, `READ_FRAME` accepts a burst of type 28, with two streams one of even length at the
depth, and resets the frame-scoped state (R164, 40_bitreader R132); that a step run at the state BURSTINFO does both is the
model's cut (log 27). -/
def Obligations.BurstinfoAccepts : Prop :=
  (∀ s : State, s.withBurst.src.POS ≤ s.src.MEM.len → exec .burstinfo s = .next (s.withBurst.entered .sync)) ∧
  (∀ s : State, s.bi.BI_DTYPE = 28 →
    (s.cfg.STREAMS2 = true → ∃ d, s.br.DEPTH = some d ∧ s.bi.BI_BITLEN.toNat / d.bits % 2 = 0) →
    passBurst s = .next (s.afterPayloadInit.entered .sync)) ∧
  (∀ s : State, s.seq.ST = .burstinfo → s.port = [] → s.afterBurst.src.POS ≤ s.src.MEM.len →
    s.withBurst.bi.BI_DTYPE = 28 →
    (s.cfg.STREAMS2 = true → ∃ d, s.br.DEPTH = some d ∧ s.withBurst.bi.BI_BITLEN.toNat / d.bits % 2 = 0) →
    step s = .next (s.afterBurst.entered .sync))

/-- Where the burst layer traps, in the order of its tests (41_burst R164, R167, R168, 60_exceptions R287): end of data
on word 1, its value, end of data on word 2, its value; end of data on the burst-info words; then the tests of `READ_FRAME`,
the data type before the odd length, with `ERRST = BURSTINFO`, in the command and in a step run at the state BURSTINFO
(log 27). That such a step stops with two streams and no depth is log 12. -/
def Obligations.BurstTraps : Prop :=
  (∀ s : State,
    (s.src.MEM.len < s.src.POS + s.sampleBytes →
      exec .preamble s = .next ((s.entered .preamble).latch (.atHeader 0)) ∧
      exec .burstinfo s = .next ((s.entered .burstinfo).latch (.atHeader 2))) ∧
    (s.src.POS + s.sampleBytes ≤ s.src.MEM.len → preamble1Depth (s.wordAt 0) = none →
      exec .preamble s = .next (((s.entered .preamble).setSrc { s.src with POS := s.src.POS + s.sampleBytes }).latch
        (.badPreamble (s.wordAt 0)))) ∧
    (s.src.POS + s.sampleBytes ≤ s.src.MEM.len → s.src.MEM.len < s.src.POS + 2 * s.sampleBytes →
      exec .burstinfo s = .next (((s.entered .burstinfo).setSrc { s.src with POS := s.src.POS + s.sampleBytes }).latch
        (.atHeader 3)))) ∧
  (∀ (s : State) (d : Depth), preamble1Depth (s.wordAt 0) = some d → s.src.POS + s.sampleBytes ≤ s.src.MEM.len →
    (s.src.MEM.len < s.src.POS + 2 * s.sampleBytes →
      exec .preamble s = .next ((((s.entered .preamble).setSrc
        { s.src with POS := s.src.POS + s.sampleBytes }).setPd (some d)).latch (.atHeader 1))) ∧
    (s.src.POS + 2 * s.sampleBytes ≤ s.src.MEM.len → s.wordAt 1 ≠ d.preamble2 →
      exec .preamble s = .next ((((s.entered .preamble).setSrc
        { s.src with POS := s.src.POS + 2 * s.sampleBytes }).setPd (some d)).latch (.badPreamble2 (s.wordAt 1))))) ∧
  (∀ (s : State) (d : Depth), s.seq.BUSY = false → s.wordAt 0 = d.preamble1 → s.wordAt 1 = d.preamble2 →
    s.src.POS + 4 * s.sampleBytes ≤ s.src.MEM.len →
    let t := ((s.afterPreamble d).withBurst).entered .burstinfo
    (t.bi.BI_DTYPE ≠ 28 → exec .readFrame s = .next (t.latch (.notDolbyE t.bi.BI_DTYPE))) ∧
    (t.bi.BI_DTYPE = 28 → s.cfg.STREAMS2 = true → t.bi.BI_BITLEN.toNat / d.bits % 2 = 1 →
      exec .readFrame s = .next (t.latch (.oddLength t.bi.BI_BITLEN)))) ∧
  (∀ s : State, s.seq.ST = .burstinfo → s.port = [] → s.src.POS + 2 * s.sampleBytes ≤ s.src.MEM.len →
    let t := s.withBurst.entered .burstinfo
    (t.bi.BI_DTYPE ≠ 28 → step s = .next (t.latch (.notDolbyE t.bi.BI_DTYPE))) ∧
    (t.bi.BI_DTYPE = 28 → s.cfg.STREAMS2 = true →
      (∀ d, s.br.DEPTH = some d → t.bi.BI_BITLEN.toNat / d.bits % 2 = 1 →
        step s = .next (t.latch (.oddLength t.bi.BI_BITLEN))) ∧
      (s.br.DEPTH = none → step s = .refused .noDepth)))

/-- With three-byte words no preamble word is ever matched (20_memory R63; the literal reading, log 18), so `PREAMBLE`
raises and `PROBE` finds nothing. -/
def Obligations.ThreeByteWordsNeverMatch : Prop :=
  ∀ s : State, s.cfg.PACK3 = true →
    (∀ i, preamble1Depth (s.wordAt i) = none) ∧
    (∃ t e, exec .preamble s = .next t ∧ t.lastErr = some (e, .preamble) ∧ t.br = s.br) ∧
    (∃ t e, exec .probescan s = .next t ∧ t.lastErr = some (e, .probescan) ∧ t.br = s.br)

/-- The probe passes zero words by one unit and failed candidates (a nonzero word that is no preamble, or a preamble word
without its companion) by one unit per stream, and at the first preamble it meets inside the window it stops before it,
sets the depth, and warns if it is late (41_burst R165, R166). The tried candidate's depth is held in the model's field
`pd` (log 5). -/
def Obligations.ProbeFinds : Prop :=
  ∀ (s t : State) (d : Depth) (off : Nat), ProbeWalk s 0 t off → off < t.cfg.PROBE_WINDOW.toNat →
    t.wordAt 0 = d.preamble1 → t.wordAt 1 = d.preamble2 → t.src.POS + 2 * t.sampleBytes ≤ t.src.MEM.len →
    exec .probescan s = .next (t.afterProbe d off).finished ∧
    (s.seq.BUSY = false → exec .probe s = .next (((t.afterProbe d off).setSeq Sequencer.done).setLastErr none))

/-- Where the probe ends with an error, after whatever zero words and failed candidates (41_burst R166, 60_exceptions R283,
R287): at the end of its window `NO_PREAMBLE`, before any further read; at the end of the stream `IN_PROBE`; on a preamble
word that is the last word of the stream `AT_HEADER(1)`; on stepping past a failed candidate that is the last word, in
two-stream mode, `IN_PROBE`. `DEPTH` is not written and no event is emitted. -/
def Obligations.ProbeGivesUp : Prop :=
  ∀ (s t : State) (off : Nat), ProbeWalk s 0 t off →
    t.br = s.br ∧ t.cfg = s.cfg ∧ t.ev = s.ev ∧ t.src.POS = s.src.POS + off ∧
    (t.cfg.PROBE_WINDOW.toNat ≤ off → ∀ i, (i = .probescan ∨ i = .probe ∧ s.seq.BUSY = false) →
      exec i s = .next ((t.entered .probescan).raisedAs (.noPreamble off) 1 6)) ∧
    (off < t.cfg.PROBE_WINDOW.toNat → t.src.MEM.len < t.src.POS + t.sampleBytes →
      ∀ i, (i = .probescan ∨ i = .probe ∧ s.seq.BUSY = false) →
        exec i s = .next ((t.marked.entered .probescan).raisedAs (.inProbe off) 4 3)) ∧
    (off < t.cfg.PROBE_WINDOW.toNat → t.src.POS + t.sampleBytes ≤ t.src.MEM.len →
      t.src.MEM.len < t.src.POS + 2 * t.sampleBytes → ∀ i, (i = .probescan ∨ i = .probe ∧ s.seq.BUSY = false) →
        (∀ d, preamble1Depth (t.wordAt 0) = some d → exec i s =
          .next ((((t.marked.setPd (some d)).advanced t.sampleBytes).entered .probescan).raisedAs (.atHeader 1) 4 2)) ∧
        (preamble1Depth (t.wordAt 0) = none → t.wordAt 0 ≠ 0 → t.cfg.STREAMS2 = true → exec i s =
          .next (((t.marked.advanced t.sampleBytes).entered .probescan).raisedAs (.inProbe off) 4 3)))

/-! ### Frame header -/

/-- `SYNC` (42_frame_header R191, 60_exceptions R287): the key flag is bit 0 of the sync word, the first region begins,
its key is read; then a word that is not the depth's sync word is refused. The sync word of a depth, once it has been read,
does the same, and is refused at another depth. The region start is that of every value of the policies (00_scope R7;
logs 8, 31). -/
def Obligations.SyncResult : Prop :=
  (∀ (s : State) (d : Depth), s.Ready d → (s.afterSync d).src.POS ≤ s.src.MEM.len →
    (syncMatches d (BitVec.ofNat 24 (s.field d 0 d.bits)) = true →
      exec .sync s = .next ((s.afterSync d).entered .metadata)) ∧
    (syncMatches d (BitVec.ofNat 24 (s.field d 0 d.bits)) = false →
      exec .sync s =
        .next (((s.afterSync d).entered .sync).latch (.badSync (BitVec.ofNat 24 (s.field d 0 d.bits)))))) ∧
  (∀ (s : State) (k : BitVec 1) (d : Depth), s.Ready d →
    ((s.setBr { s.br with KEYP := k.getLsbD 0 }).afterRegionStart d true).src.POS ≤ s.src.MEM.len →
    (d = .d16 → exec (.sync16 k) s = .next ((s.setBr { s.br with KEYP := k.getLsbD 0 }).afterRegionStart d true)) ∧
    (d = .d20 → exec (.sync20 k) s = .next ((s.setBr { s.br with KEYP := k.getLsbD 0 }).afterRegionStart d true)) ∧
    (d = .d24 → exec (.sync24 k) s = .next ((s.setBr { s.br with KEYP := k.getLsbD 0 }).afterRegionStart d true)) ∧
    (d ≠ .d16 → exec (.sync16 k) s = .next (((s.setBr { s.br with KEYP := k.getLsbD 0 }).afterRegionStart d true).latch
      (.badSync (0x078E#24 ||| k.setWidth 24)))) ∧
    (d ≠ .d20 → exec (.sync20 k) s = .next (((s.setBr { s.br with KEYP := k.getLsbD 0 }).afterRegionStart d true).latch
      (.badSync (0x0788E#24 ||| k.setWidth 24)))) ∧
    (d ≠ .d24 → exec (.sync24 k) s = .next (((s.setBr { s.br with KEYP := k.getLsbD 0 }).afterRegionStart d true).latch
      (.badSync (0x07888E#24 ||| k.setWidth 24)))))

/-- `METADATA` (42_frame_header R192, R195, 60_exceptions R287): with legal codes the header and the timecode block; with a
reserved or illegal program-configuration code it raises and the frame-rate code is not read; with a reserved frame-rate
code it raises and the timecode is not read. `TIMECODE` reads the fields of `TC_LAYOUT`, whatever the layout (00_scope R7;
logs 11, 31); with the layout of R196 (the spec's decision D18) the block has 64 bits and the registers stand where R196's
table puts them. -/
def Obligations.MetadataResult : Prop :=
  (∀ (s : State) (d : Depth), s.Ready d →
    (s.par.Ok → s.HeaderAhead d → (s.afterMetadata d).src.POS ≤ s.src.MEM.len →
      exec .metadata s = .next ((s.afterMetadata d).entered .framedist)) ∧
    (23 < (s.headerPcfg d).toNat → (s.consume d 20).src.POS ≤ s.src.MEM.len → exec .metadata s =
      .next ((((s.consume d 20).headerBegun (s.headerId d) (s.headerSize d) (s.headerPcfg d)).entered .metadata).latch
        (if s.headerPcfg d = 63 then .pcfgIllegal 63 else .pcfgReserved (s.headerPcfg d)))) ∧
    ((s.headerPcfg d).toNat ≤ 23 → (s.headerFrc d = 0 ∨ 9 ≤ (s.headerFrc d).toNat) →
      (s.consume d 24).src.POS ≤ s.src.MEM.len → exec .metadata s =
        let t := ((s.consume d 24).headerBegun (s.headerId d) (s.headerSize d) (s.headerPcfg d)).configured (s.headerPcfg d)
        .next (((t.setFr { t.fr with FRC := s.headerFrc d }).entered .metadata).latch (.frcReserved (s.headerFrc d)))) ∧
    (s.par.Ok → (s.afterTimecodeBlock d).src.POS ≤ s.src.MEM.len →
      exec .timecode s = .next (s.afterTimecodeBlock d)) ∧
    (s.par.tcLayout = State.reset.par.tcLayout →
      let t := s.tc.storeAll (s.layoutFields d 0 s.par.tcLayout)
      s.par.tcLayout.bits = 64 ∧ t.TC_HT = BitVec.ofNat 2 (s.field d 10 2) ∧ t.TC_HU = BitVec.ofNat 4 (s.field d 12 4) ∧
      t.TC_MT = BitVec.ofNat 3 (s.field d 25 3) ∧ t.TC_MU = BitVec.ofNat 4 (s.field d 28 4) ∧
      t.TC_ST = BitVec.ofNat 3 (s.field d 41 3) ∧ t.TC_SU = BitVec.ofNat 4 (s.field d 44 4) ∧
      t.TC_DF = s.bitAt d 57 ∧ t.TC_FT = BitVec.ofNat 2 (s.field d 58 2) ∧ t.TC_FU = BitVec.ofNat 4 (s.field d 60 4) ∧
      t.TCVALID = s.tc.TCVALID ∧ t.FRAMEIDX = s.tc.FRAMEIDX)) ∧
  (∀ (s : State) (vals : List Nat),
    exec (.tcblock vals) s = .next (s.afterTimecode (s.par.tcLayout.withValues vals)))

/-- The classes of the program-configuration and frame-rate codes (42_frame_header R192, R194, 45_progconfig R270), by
themselves and in a metadata header: legal codes are stored with what they select, the channels and programs of their row
of `PCFG_TABLE`, whatever the table (00_scope R7; logs 9, 31); the others are stored and raise, the program-configuration
code first. -/
def Obligations.CodeClasses : Prop :=
  ∀ s : State,
    (∀ (c : BitVec 6) (h : c.toNat < 24), s.pcfgRow c = s.par.pcfgTable[c.toNat] ∧
      exec (.pcfg c) s = .next (s.setRet (.pair s.par.pcfgTable[c.toNat].1.val s.par.pcfgTable[c.toNat].2.val)) ∧
      exec (.pcfgValid c) s = .next (s.setFr { s.fr with
        PCFGC := c, NCH := BitVec.ofNat 4 s.par.pcfgTable[c.toNat].1.val
        NPROG := BitVec.ofNat 4 s.par.pcfgTable[c.toNat].2.val })) ∧
    (∀ c : BitVec 6, 24 ≤ c.toNat → c.toNat ≤ 62 → exec (.pcfgReserved c) s =
      .next ((s.setFr { s.fr with PCFGC := c }).latch (.pcfgReserved c))) ∧
    exec .pcfgIllegal s = .next ((s.setFr { s.fr with PCFGC := 63 }).latch (.pcfgIllegal 63)) ∧
    (∀ f : BitVec 4, 1 ≤ f.toNat → f.toNat ≤ 5 →
      exec (.frcLow f) s = .next (s.setFr { s.fr with FRC := f, LFR := true })) ∧
    (∀ f : BitVec 4, 6 ≤ f.toNat → f.toNat ≤ 8 →
      exec (.frcStd f) s = .next (s.setFr { s.fr with FRC := f, LFR := false })) ∧
    (∀ f : BitVec 4, (f = 0 ∨ 9 ≤ f.toNat) →
      exec (.frcReserved f) s = .next ((s.setFr { s.fr with FRC := f }).latch (.frcReserved f))) ∧
    (∀ (i : BitVec 4) (size : BitVec 10) (c : BitVec 6) (f : BitVec 4),
      (c.toNat ≤ 23 → 1 ≤ f.toNat → f.toNat ≤ 8 →
        exec (.mdhdr i size c f) s = .next (s.afterHeader i size c f)) ∧
      (c.toNat ≤ 23 → (f = 0 ∨ 9 ≤ f.toNat) → exec (.mdhdr i size c f) s =
        let t := (s.headerBegun i size c).configured c
        .next ((t.setFr { t.fr with FRC := f }).latch (.frcReserved f))) ∧
      (24 ≤ c.toNat → c.toNat ≤ 62 →
        exec (.mdhdr i size c f) s = .next ((s.headerBegun i size c).latch (.pcfgReserved c))) ∧
      (c = 63 → exec (.mdhdr i size c f) s = .next ((s.headerBegun i size c).latch (.pcfgIllegal 63))))

/-- `programConfig(0)`, `(11)`, `(18)`, which every admissible table gives so (45_progconfig R270 to R272), and the codes
that fail with a ConfigurationError, kind 2, which leaves the machine idle (R270, 60_exceptions R281, R283). The pair handed
back goes to the model's `ret` (log 5). -/
def Obligations.ProgramConfigurations : Prop :=
  ∀ s : State,
    (s.par.Ok → exec (.pcfg 0) s = .next (s.setRet (.pair 8 2)) ∧ exec (.pcfg 11) s = .next (s.setRet (.pair 6 1)) ∧
      exec (.pcfg 18) s = .next (s.setRet (.pair 4 1))) ∧
    exec (.pcfg 63) s = .next (s.latch (.pcfgIllegal 63)) ∧
    (∀ c : BitVec 6, 24 ≤ c.toNat → c.toNat ≤ 62 → exec (.pcfg c) s = .next (s.latch (.pcfgReserved c))) ∧
    (∀ e : ErrVal, errKind e = .configuration → (s.latch e).seq.ERRK = 2 ∧ (s.latch e).seq.ST = .idle)

/-- `FRAMEDIST`, `PROGMETA` and `CHANMETA` take their fields at the bit offsets of their layouts, write the elements below
the counts, and keep the others (42_frame_header R198, R199, R201, R202). -/
def Obligations.HeaderStates : Prop :=
  ∀ (s : State) (d : Depth), s.Ready d → s.fr.NCH.toNat ≤ 8 → s.fr.NPROG.toNat ≤ 8 →
    ((s.afterFramedist d).src.POS ≤ s.src.MEM.len →
      exec .framedist s = .next ((s.afterFramedist d).entered .progmeta)) ∧
    ((s.afterProgmeta d).src.POS ≤ s.src.MEM.len →
      exec .progmeta s = .next ((s.afterProgmeta d).entered .chanmeta)) ∧
    ((s.afterChanmeta d).src.POS ≤ s.src.MEM.len →
      exec .chanmeta s = .next ((s.afterChanmeta d).entered .mdsubseg))

/-- A field that has been read goes to its register and nowhere else (42_frame_header R198, R201, 44_audio_meter
R253). -/
def Obligations.FieldPatterns : Prop :=
  ∀ (s : State) (c : Fin 8),
    (∀ v, exec (.chsz c v) s = .next (s.setCh { s.ch with CHSZ := s.ch.CHSZ.set c v })) ∧
    (∀ v, exec (.extsz v) s = .next (s.setFr { s.fr with EXTSZ := v })) ∧
    (∀ v, exec (.metsz v) s = .next (s.setFr { s.fr with METSZ := v })) ∧
    (∀ v, exec (.peak c v) s = .next (s.setCh { s.ch with PEAK := s.ch.PEAK.set c v })) ∧
    (∀ v, exec (.rms c v) s = .next (s.setCh { s.ch with RMS := s.ch.RMS.set c v })) ∧
    (∀ r p b e, exec (.cmeta c r p b e) s = .next (s.setCh { s.ch with
      REVID := s.ch.REVID.set c r, BITPOOL := s.ch.BITPOOL.set c p, BGAIN := s.ch.BGAIN.set c b
      EGAIN := s.ch.EGAIN.set c e }))

/-- A description character, by its class, and with the program's other metadata (42_frame_header R199, R200). -/
def Obligations.CharacterPatterns : Prop :=
  ∀ (s : State) (p : Fin 8),
    exec (.nul p) s = .next s ∧ exec (.stx p) s = .next (s.afterChar p 2) ∧ exec (.etx p) s = .next (s.afterChar p 3) ∧
    (∀ ch, isPrintable ch = true → exec (.print p ch) s = .next (s.afterChar p ch)) ∧
    (∀ ch, (Instr.charOther p ch).wellFormed s.par = true → exec (.charOther p ch) s = .next s) ∧
    (∀ ch, exec (.descchar p ch) s = .next (s.afterChar p ch)) ∧
    (∀ ch b, exec (.pmeta p ch b) s = .next ((s.afterChar p ch).setPg
      { s.pg with DCHAR := s.pg.DCHAR.set p ch, BWID := s.pg.BWID.set p b }))

/-- STX, a printable text, ETX: the description is the text, cut at `DESC_MAX`, whatever that is and whatever was there
before; one event; other programs untouched (42_frame_header R200). -/
def Obligations.TextRunPublished : Prop :=
  ∀ (s : State) (p : Fin 8) (text : List (BitVec 8)), (∀ c ∈ text, isPrintable c = true) →
    feedChars p (2 :: text ++ [3]) s =
      .next ((s.setDesc (s.desc.set p
        ⟨text.take s.par.descMax, false, text.take s.par.descMax, true⟩)).setEv
          (s.ev ++ [.desc p (min text.length s.par.descMax)]))

/-- `CONTINUITY_UPDATE` and `CONTINUITY_INVALIDATE`: comparisons only with known values, then the registers
(42_frame_header R197). -/
def Obligations.ContinuityResult : Prop :=
  ∀ s : State,
    (∀ idx df, exec (.continuityUpdate idx df) s = .next (s.afterContinuity idx df)) ∧
    exec .continuityInvalidate s =
      .next ((s.setCont { s.cont with LASTIDX_V := false, LASTDROP_V := false }).setEv (s.ev ++ [.tcInvalid]))

/-! ### Subsegments -/

/-- Data-rate codes 19 to 30 warn and no other value does; nothing is rejected (43_subsegments R228; that no other
field warns is the spec's decision D21). -/
def Obligations.ReservedRateWarns : Prop :=
  ∀ (s : State) (base : Bool) (p : Fin 8),
    exec (.ac3check base p) s = .next (s.setEv (s.ev ++
      if 19 ≤ (((s.recs base)[p]).get .datarate).toNat ∧ (((s.recs base)[p]).get .datarate).toNat ≤ 30
        then [.ac3Reserved p .datarate (((s.recs base)[p]).get .datarate).toNat] else []))

/-- AC3 blocks that have been read, and additional information (43_subsegments R224, R225): each value goes to the field
its layout names, cut to the width its entry gives (10_state R37), and to no other, so the extended fields stay when the
block has none; the stated number of bytes is skipped. The layouts are arguments (00_scope R7; logs 10, 31). -/
def Obligations.Ac3Patterns : Prop :=
  (∀ (r : Ac3Rec) (f g : Ac3Field) (w v : Nat),
    (r.store (f, w) v).get f = BitVec.ofNat 32 (v % 2 ^ w) ∧ (g ≠ f → (r.store (f, w) v).get g = r.get g)) ∧
  (∀ (s : State) (base : Bool) (p : Fin 8),
    (∀ vals, exec (.ac3base base p vals) s = .next (s.afterRecord base p
      { ((s.recs base)[p]).storeAll (s.par.ac3LayoutBase.withValues vals) with VALID := true, EXT := false })) ∧
    (∀ vals more, exec (.ac3ext base p vals more) s = .next (s.afterRecord base p
      { ((s.recs base)[p]).storeAll (s.par.ac3LayoutExt.withValues (vals ++ more)) with VALID := true, EXT := true })) ∧
    exec (.addbsi0 base p) s = .next (s.withAddbsi base p false 0)) ∧
  (∀ (s : State) (d : Depth) (base : Bool) (p : Fin 8) (len : BitVec 6), s.Ready d →
    (s.consume d (8 * len.toNat)).src.POS ≤ s.src.MEM.len →
    exec (.addbsi1 base p len) s = .next ((s.consume d (8 * len.toNat)).withAddbsi base p true len)) ∧
  (∀ (s : State) (d : Depth) (base : Bool) (p : Fin 8), s.Ready d →
    (s.afterAddbsi d base p).src.POS ≤ s.src.MEM.len →
    exec (.addbsi base p) s = .next (s.afterAddbsi d base p))

/-- `AC3INFO` reads one block per program by the layout in force, then one additional-information group per program
(43_subsegments R224, R225), for every admissible layout (00_scope R7; logs 10, 31): a field takes the bits that stand after
those of the fields before it, a field the layout does not name is kept, and the default layouts of R226 and R227 have 42
and 106 bits. -/
def Obligations.Ac3InfoResult : Prop :=
  (∀ (s : State) (d : Depth) (ext base : Bool), s.Ready d → s.par.Ok →
    (s.afterAc3info d ext base).src.POS ≤ s.src.MEM.len →
    exec (.ac3info ext base) s = .next (s.afterAc3info d ext base)) ∧
  (∀ (s : State) (d : Depth) (r : Ac3Rec) (before after : Layout Ac3Field) (f : Ac3Field) (w : Nat),
    (∀ x ∈ after, x.1 ≠ f) →
    (r.storeAll (s.layoutFields d 0 (before ++ (f, w) :: after))).get f = BitVec.ofNat 32 (s.field d before.bits w)) ∧
  (∀ (s : State) (d : Depth) (r : Ac3Rec) (l : Layout Ac3Field) (f : Ac3Field), (∀ x ∈ l, x.1 ≠ f) →
    (r.storeAll (s.layoutFields d 0 l)).get f = r.get f) ∧
  State.reset.par.ac3LayoutBase.bits = 42 ∧ State.reset.par.ac3LayoutExt.bits = 106

/-- A sub-block header that has been read: interpreted or skipped, by `SUBSEG_LEN_RECONCILE` reconciled with its length,
counted (43_subsegments R222, R223), for every value of that policy and every admissible layout (00_scope R7; logs 8, 10,
31). -/
def Obligations.SubBlockResult : Prop :=
  ∀ (s : State) (d : Depth) (base : Bool) (len : BitVec 12), s.Ready d → s.par.Ok →
    ((s.afterSubBlock d base 1 len).src.POS ≤ s.src.MEM.len →
      exec (.ac3x base len) s = .next (s.afterSubBlock d base 1 len)) ∧
    ((s.afterSubBlock d true 2 len).src.POS ≤ s.src.MEM.len →
      exec (.ac3b len) s = .next (s.afterSubBlock d true 2 len)) ∧
    ((s.consume d len.toNat).src.POS ≤ s.src.MEM.len →
      exec (.subskip2x len) s = .next ((s.consume d len.toNat).counted false) ∧
      exec (.subskip3 base len) s = .next ((s.consume d len.toNat).counted base) ∧
      (∀ i, exec (.subskip4to7 base i len) s = .next ((s.consume d len.toNat).counted base)) ∧
      (∀ i, exec (.subskip8to15 base i len) s = .next ((s.consume d len.toNat).counted base)))

/-- `SUBSEGLOOP` walks the sub-blocks of the stream until id 0, whatever their number (43_subsegments R222), each by the
policy and the layouts in force, for every admissible value of them (00_scope R7; logs 8, 10, 31). -/
def Obligations.SubsegLoopWalks : Prop :=
  ∀ (s t : State) (d : Depth) (base : Bool), s.Ready d → s.par.Ok → SubWalk d base s t → t.src.POS ≤ s.src.MEM.len →
    exec (.subsegloop base) s = .next t

/-- `MDSUBSEG` and `EXTSUBSEG` (43_subsegments R220, R221, 10_state R27): the loop, the padding, the codeword; the
extension begins a region of its own. An overrun under the policy `fault` raises `SEG_OVERRUN` before the codeword
(40_bitreader R137). For every admissible value of the parameters (00_scope R7; logs 8, 10, 31). -/
def Obligations.SegmentStates : Prop :=
  (∀ (s t : State) (d : Depth), s.Ready d → s.par.Ok → SubWalk d true s t →
    (t.PadOk d t.fr.MDSIZE.toNat → (t.afterSegment d t.fr.MDSIZE.toNat .metadata).src.POS ≤ s.src.MEM.len →
      exec .mdsubseg s = .next ((t.afterSegment d t.fr.MDSIZE.toNat .metadata).entered .audio)) ∧
    (¬t.PadOk d t.fr.MDSIZE.toNat → t.src.POS ≤ s.src.MEM.len →
      exec .mdsubseg s = .next ((t.entered .mdsubseg).latch (.segOverrun .metadata)))) ∧
  (∀ (s t : State) (d : Depth), s.Ready d → s.par.Ok → SubWalk d false (s.afterRegionStart d false) t →
    (t.PadOk d t.fr.EXTSZ.toNat → (t.afterSegment d t.fr.EXTSZ.toNat .extMeta).src.POS ≤ s.src.MEM.len →
      exec .extsubseg s = .next ((t.afterSegment d t.fr.EXTSZ.toNat .extMeta).entered .audioext)) ∧
    (¬t.PadOk d t.fr.EXTSZ.toNat → t.src.POS ≤ s.src.MEM.len →
      exec .extsubseg s = .next ((t.entered .extsubseg).latch (.segOverrun .extMeta))))

/-! ### Audio, meter, completion -/

/-- Audio and meter: samples are consumed by count, each half is a region with its own codeword, the extension follows
only a low frame rate; all peaks, then all RMS values, padding and codeword, or `SEG_OVERRUN` under the policy `fault`
(44_audio_meter R250 to R253, 40_bitreader R137, 10_state R27). For every value of the policies (00_scope R7; logs 8,
31). -/
def Obligations.AudioAndMeter : Prop :=
  ∀ (s : State) (d : Depth), s.Ready d →
    (∀ lo hi r, (s.afterHalf d lo hi r).src.POS ≤ s.src.MEM.len →
      exec (.audiohalf lo hi r) s = .next (s.afterHalf d lo hi r)) ∧
    ((s.afterHalves d .audio0 .audio1).src.POS ≤ s.src.MEM.len →
      exec .audio s =
        .next ((s.afterHalves d .audio0 .audio1).entered (if s.fr.LFR then .extsubseg else .meter))) ∧
    ((s.afterHalves d .extAudio0 .extAudio1).src.POS ≤ s.src.MEM.len →
      exec .audioext s = .next ((s.afterHalves d .extAudio0 .extAudio1).entered .meter)) ∧
    (s.fr.NCH.toNat ≤ 8 → ((s.afterRegionStart d false).afterMeters d).PadOk d s.fr.METSZ.toNat →
      (s.afterMeter d).src.POS ≤ s.src.MEM.len → exec .meter s = .next ((s.afterMeter d).entered .complete)) ∧
    (s.fr.NCH.toNat ≤ 8 → ¬((s.afterRegionStart d false).afterMeters d).PadOk d s.fr.METSZ.toNat →
      ((s.afterRegionStart d false).afterMeters d).src.POS ≤ s.src.MEM.len → exec .meter s =
        .next ((((s.afterRegionStart d false).afterMeters d).entered .meter).latch (.segOverrun .meter)))

/-- `COMPLETE` skips what the burst declared beyond what was consumed, and the command is done; a negative remainder is
an error before missing padding is (44_audio_meter R258, 41_burst R160, 60_exceptions R287). -/
def Obligations.CompleteResult : Prop :=
  ∀ (s : State) (d : Depth), s.br.DEPTH = some d →
    (s.br.BYTECNT ≤ s.expectedBytes d → (s.afterComplete d).src.POS ≤ s.src.MEM.len →
      exec .complete s = .next (s.afterComplete d).finished) ∧
    (s.expectedBytes d < s.br.BYTECNT → exec .complete s = .next ((s.entered .complete).latch .negRemainder)) ∧
    (s.br.BYTECNT ≤ s.expectedBytes d → s.src.POS ≤ s.src.MEM.len → s.src.MEM.len < (s.afterComplete d).src.POS →
      exec .complete s =
        .next ((((s.entered .complete).setBr { s.br with RES := 0, RESCNT := 0 }).setSrc
          { s.src with POS := s.src.POS + (s.src.MEM.len - s.src.POS) / s.sampleBytes * s.sampleBytes }).latch
            .padding))

/-! ### Sample Source, errors, events, host port -/

/-- `SrcMark` saves the position, replacing any mark (20_memory R64). -/
def Obligations.MarkSavesPosition : Prop :=
  ∀ s : State, exec .srcMark s = .next (s.setSrc { s.src with MARKPOS := s.src.POS, MARK_V := true })

/-- `MemRead`, `SrcReadWord`, `SrcReset` (20_memory R62, R63, R65): bytes or EndOfData with nothing moved; a word is
little-endian, three bytes leaving bits 31 to 24 zero; back to the mark, which stays. Without a mark the model stops
(log 15); what is handed back goes to the model's `ret` (log 5). -/
def Obligations.SourceCalls : Prop :=
  ∀ s : State,
    (∀ a n, exec (.memRead a n) s = .next (s.setRet (if a + n ≤ s.src.MEM.len
      then .bytes ((List.range n).map fun i => s.src.MEM.byteAt (a + i)) else .endOfData))) ∧
    (s.src.POS + s.sampleBytes ≤ s.src.MEM.len →
      exec .srcReadWord s = .next ((s.setSrc { s.src with POS := s.src.POS + s.sampleBytes }).setRet
        (.num (s.wordAt 0).toNat))) ∧
    (s.src.MEM.len < s.src.POS + s.sampleBytes → exec .srcReadWord s = .next (s.setRet .endOfData)) ∧
    (∀ j, j < 4 → (s.wordAt 0).extractLsb' (8 * j) 8
      = if j < s.sampleBytes then s.src.MEM.byteAt (s.src.POS + j) else 0) ∧
    (s.src.MARK_V = true → exec .srcReset s = .next (s.setSrc { s.src with POS := s.src.MARKPOS })) ∧
    (s.src.MARK_V = false → exec .srcReset s = .refused .noMark)

/-- Taking an error writes the latch with the numbers of its kind and sub-code, `ST` at the raise and the returned error
value, and nothing else (60_exceptions R281 to R283); an event is appended to the trace and nothing else (R290). The returned
value is the model's field `lastErr` (log 5). -/
def Obligations.RaiseAndEmit : Prop :=
  ∀ s : State,
    (∀ w, exec (.raise (.badPreamble w)) s = .next (s.raisedAs (.badPreamble w) 1 1)) ∧
    (∀ w, exec (.raise (.badPreamble2 w)) s = .next (s.raisedAs (.badPreamble2 w) 1 2)) ∧
    (∀ w, exec (.raise (.badSync w)) s = .next (s.raisedAs (.badSync w) 1 3)) ∧
    (∀ v, exec (.raise (.notDolbyE v)) s = .next (s.raisedAs (.notDolbyE v) 1 4)) ∧
    (∀ v, exec (.raise (.oddLength v)) s = .next (s.raisedAs (.oddLength v) 1 5)) ∧
    (∀ n, exec (.raise (.noPreamble n)) s = .next (s.raisedAs (.noPreamble n) 1 6)) ∧
    (∀ c, exec (.raise (.pcfgReserved c)) s = .next (s.raisedAs (.pcfgReserved c) 2 1)) ∧
    (∀ c, exec (.raise (.pcfgIllegal c)) s = .next (s.raisedAs (.pcfgIllegal c) 2 2)) ∧
    (∀ c, exec (.raise (.pcfgRange c)) s = .next (s.raisedAs (.pcfgRange c) 2 3)) ∧
    (∀ f, exec (.raise (.frcReserved f)) s = .next (s.raisedAs (.frcReserved f) 2 4)) ∧
    exec (.raise .midField) s = .next (s.raisedAs .midField 4 1) ∧
    (∀ i, exec (.raise (.atHeader i)) s = .next (s.raisedAs (.atHeader i) 4 2)) ∧
    (∀ n, exec (.raise (.inProbe n)) s = .next (s.raisedAs (.inProbe n) 4 3)) ∧
    exec (.raise .padding) s = .next (s.raisedAs .padding 4 4) ∧
    exec (.raise .negRemainder) s = .next (s.raisedAs .negRemainder 5 1) ∧
    (∀ r, exec (.raise (.segOverrun r)) s = .next (s.raisedAs (.segOverrun r) 5 2)) ∧
    (∀ e, errKind e ≠ .integrity) ∧ kindCode .integrity = 3 ∧
    (∀ e, exec (.emit e) s = .next (s.setEv (s.ev ++ [e])))

/-- The host port (10_state R30 to R32, R45): what a write does to `CFG`, `PROBE_WINDOW`, `PROBE_LATE` while no command
runs, that `STATUS` and `PROBE_OFF` ignore writes, what a read hands back; a number the spec does not fix stops, read or written
(log 26). Between commands the host may move the stream position, which changes nothing else (70_reset R333); past the end of
the stream that stops (log 25). A write of a configuration register or a seek while a command runs stops (log 17). -/
def Obligations.HostPort : Prop :=
  (∀ (s : State) (v : BitVec 32) (rest : List Request),
    (s.port = .write 0 v :: rest → step s = .next (s.setPort rest)) ∧
    (s.port = .write 4 v :: rest → step s = .next (s.setPort rest)) ∧
    (s.seq.BUSY = false → s.port = .write 1 v :: rest → step s = .next ((s.setPort rest).setCfg
      { s.cfg with STREAMS2 := v.getLsbD 0, PACK3 := v.getLsbD 1 })) ∧
    (s.seq.BUSY = false → s.port = .write 2 v :: rest →
      step s = .next ((s.setPort rest).setCfg { s.cfg with PROBE_WINDOW := v })) ∧
    (s.seq.BUSY = false → s.port = .write 3 v :: rest →
      step s = .next ((s.setPort rest).setCfg { s.cfg with PROBE_LATE := v })) ∧
    (∀ n, 1 ≤ n → n ≤ 3 → s.seq.BUSY = true → s.port = .write n v :: rest → step s = .refused .hostWhileBusy) ∧
    (∀ n, 6 ≤ n → s.port = .write n v :: rest → step s = .refused (.hostRegister n))) ∧
  (∀ (s : State) (rest : List Request),
    (s.port = .read 0 :: rest → ∃ w : BitVec 32, step s = .next ((s.setPort rest).setRet (.num w.toNat)) ∧
      w.getLsbD 0 = s.seq.BUSY ∧ w.getLsbD 1 = s.seq.DONE ∧ w.extractLsb' 2 3 = s.seq.ERRK ∧
      w.extractLsb' 5 4 = s.seq.ERRS ∧ w.extractLsb' 9 4 = s.seq.ERRST ∧ w.extractLsb' 13 19 = 0) ∧
    (s.port = .read 1 :: rest → step s = .next ((s.setPort rest).setRet
      (.num (s.cfg.STREAMS2.toNat + 2 * s.cfg.PACK3.toNat)))) ∧
    (s.port = .read 2 :: rest → step s = .next ((s.setPort rest).setRet (.num s.cfg.PROBE_WINDOW.toNat))) ∧
    (s.port = .read 3 :: rest → step s = .next ((s.setPort rest).setRet (.num s.cfg.PROBE_LATE.toNat))) ∧
    (s.port = .read 4 :: rest → step s = .next ((s.setPort rest).setRet (.num s.cfg.PROBE_OFF.toNat))) ∧
    (s.port = .read 5 :: rest → step s = .next ((s.setPort rest).setRet (.num 0))) ∧
    (∀ n, 6 ≤ n → s.port = .read n :: rest → step s = .refused (.hostRegister n)) ∧
    (∀ pos, s.port = .seek pos :: rest →
      (s.seq.BUSY = false → pos ≤ s.src.MEM.len →
        step s = .next ((s.setPort rest).setSrc { s.src with POS := pos })) ∧
      (s.seq.BUSY = false → s.src.MEM.len < pos → step s = .refused (.seekOutside pos)) ∧
      (s.seq.BUSY = true → step s = .refused .hostWhileBusy)))
end

