-- ==== Sys2Proof/Laws/State.lean ====
section
/-! SUPPORT. What each update of a group of registers leaves in each group, so that no proof unfolds a record update. -/

namespace Sys2Proof.Machine

/-! ### After `State.setBr` -/

@[simp] theorem State.setBr_br (s : State) (x : BitReader) : (s.setBr x).br = x := rfl
@[simp] theorem State.setBr_bi (s : State) (x : BitReader) : (s.setBr x).bi = s.bi := rfl
@[simp] theorem State.setBr_seq (s : State) (x : BitReader) : (s.setBr x).seq = s.seq := rfl
@[simp] theorem State.setBr_cfg (s : State) (x : BitReader) : (s.setBr x).cfg = s.cfg := rfl
@[simp] theorem State.setBr_fr (s : State) (x : BitReader) : (s.setBr x).fr = s.fr := rfl
@[simp] theorem State.setBr_tc (s : State) (x : BitReader) : (s.setBr x).tc = s.tc := rfl
@[simp] theorem State.setBr_ch (s : State) (x : BitReader) : (s.setBr x).ch = s.ch := rfl
@[simp] theorem State.setBr_pg (s : State) (x : BitReader) : (s.setBr x).pg = s.pg := rfl
@[simp] theorem State.setBr_ac3m (s : State) (x : BitReader) : (s.setBr x).ac3m = s.ac3m := rfl
@[simp] theorem State.setBr_ac3x (s : State) (x : BitReader) : (s.setBr x).ac3x = s.ac3x := rfl
@[simp] theorem State.setBr_cont (s : State) (x : BitReader) : (s.setBr x).cont = s.cont := rfl
@[simp] theorem State.setBr_desc (s : State) (x : BitReader) : (s.setBr x).desc = s.desc := rfl
@[simp] theorem State.setBr_src (s : State) (x : BitReader) : (s.setBr x).src = s.src := rfl
@[simp] theorem State.setBr_ev (s : State) (x : BitReader) : (s.setBr x).ev = s.ev := rfl
@[simp] theorem State.setBr_port (s : State) (x : BitReader) : (s.setBr x).port = s.port := rfl
@[simp] theorem State.setBr_ret (s : State) (x : BitReader) : (s.setBr x).ret = s.ret := rfl
@[simp] theorem State.setBr_lastErr (s : State) (x : BitReader) : (s.setBr x).lastErr = s.lastErr := rfl
@[simp] theorem State.setBr_pd (s : State) (x : BitReader) : (s.setBr x).pd = s.pd := rfl
@[simp] theorem State.setBr_par (s : State) (x : BitReader) : (s.setBr x).par = s.par := rfl
@[simp] theorem State.setBr_setBr (s : State) (x y : BitReader) : (s.setBr x).setBr y = s.setBr y := rfl
@[simp] theorem State.setBr_same (s : State) : s.setBr s.br = s := rfl

/-! ### After `State.setBi` -/

@[simp] theorem State.setBi_br (s : State) (x : BurstInfo) : (s.setBi x).br = s.br := rfl
@[simp] theorem State.setBi_bi (s : State) (x : BurstInfo) : (s.setBi x).bi = x := rfl
@[simp] theorem State.setBi_seq (s : State) (x : BurstInfo) : (s.setBi x).seq = s.seq := rfl
@[simp] theorem State.setBi_cfg (s : State) (x : BurstInfo) : (s.setBi x).cfg = s.cfg := rfl
@[simp] theorem State.setBi_fr (s : State) (x : BurstInfo) : (s.setBi x).fr = s.fr := rfl
@[simp] theorem State.setBi_tc (s : State) (x : BurstInfo) : (s.setBi x).tc = s.tc := rfl
@[simp] theorem State.setBi_ch (s : State) (x : BurstInfo) : (s.setBi x).ch = s.ch := rfl
@[simp] theorem State.setBi_pg (s : State) (x : BurstInfo) : (s.setBi x).pg = s.pg := rfl
@[simp] theorem State.setBi_ac3m (s : State) (x : BurstInfo) : (s.setBi x).ac3m = s.ac3m := rfl
@[simp] theorem State.setBi_ac3x (s : State) (x : BurstInfo) : (s.setBi x).ac3x = s.ac3x := rfl
@[simp] theorem State.setBi_cont (s : State) (x : BurstInfo) : (s.setBi x).cont = s.cont := rfl
@[simp] theorem State.setBi_desc (s : State) (x : BurstInfo) : (s.setBi x).desc = s.desc := rfl
@[simp] theorem State.setBi_src (s : State) (x : BurstInfo) : (s.setBi x).src = s.src := rfl
@[simp] theorem State.setBi_ev (s : State) (x : BurstInfo) : (s.setBi x).ev = s.ev := rfl
@[simp] theorem State.setBi_port (s : State) (x : BurstInfo) : (s.setBi x).port = s.port := rfl
@[simp] theorem State.setBi_ret (s : State) (x : BurstInfo) : (s.setBi x).ret = s.ret := rfl
@[simp] theorem State.setBi_lastErr (s : State) (x : BurstInfo) : (s.setBi x).lastErr = s.lastErr := rfl
@[simp] theorem State.setBi_pd (s : State) (x : BurstInfo) : (s.setBi x).pd = s.pd := rfl
@[simp] theorem State.setBi_par (s : State) (x : BurstInfo) : (s.setBi x).par = s.par := rfl
@[simp] theorem State.setBi_setBi (s : State) (x y : BurstInfo) : (s.setBi x).setBi y = s.setBi y := rfl
@[simp] theorem State.setBi_same (s : State) : s.setBi s.bi = s := rfl

/-! ### After `State.setSeq` -/

@[simp] theorem State.setSeq_br (s : State) (x : Sequencer) : (s.setSeq x).br = s.br := rfl
@[simp] theorem State.setSeq_bi (s : State) (x : Sequencer) : (s.setSeq x).bi = s.bi := rfl
@[simp] theorem State.setSeq_seq (s : State) (x : Sequencer) : (s.setSeq x).seq = x := rfl
@[simp] theorem State.setSeq_cfg (s : State) (x : Sequencer) : (s.setSeq x).cfg = s.cfg := rfl
@[simp] theorem State.setSeq_fr (s : State) (x : Sequencer) : (s.setSeq x).fr = s.fr := rfl
@[simp] theorem State.setSeq_tc (s : State) (x : Sequencer) : (s.setSeq x).tc = s.tc := rfl
@[simp] theorem State.setSeq_ch (s : State) (x : Sequencer) : (s.setSeq x).ch = s.ch := rfl
@[simp] theorem State.setSeq_pg (s : State) (x : Sequencer) : (s.setSeq x).pg = s.pg := rfl
@[simp] theorem State.setSeq_ac3m (s : State) (x : Sequencer) : (s.setSeq x).ac3m = s.ac3m := rfl
@[simp] theorem State.setSeq_ac3x (s : State) (x : Sequencer) : (s.setSeq x).ac3x = s.ac3x := rfl
@[simp] theorem State.setSeq_cont (s : State) (x : Sequencer) : (s.setSeq x).cont = s.cont := rfl
@[simp] theorem State.setSeq_desc (s : State) (x : Sequencer) : (s.setSeq x).desc = s.desc := rfl
@[simp] theorem State.setSeq_src (s : State) (x : Sequencer) : (s.setSeq x).src = s.src := rfl
@[simp] theorem State.setSeq_ev (s : State) (x : Sequencer) : (s.setSeq x).ev = s.ev := rfl
@[simp] theorem State.setSeq_port (s : State) (x : Sequencer) : (s.setSeq x).port = s.port := rfl
@[simp] theorem State.setSeq_ret (s : State) (x : Sequencer) : (s.setSeq x).ret = s.ret := rfl
@[simp] theorem State.setSeq_lastErr (s : State) (x : Sequencer) : (s.setSeq x).lastErr = s.lastErr := rfl
@[simp] theorem State.setSeq_pd (s : State) (x : Sequencer) : (s.setSeq x).pd = s.pd := rfl
@[simp] theorem State.setSeq_par (s : State) (x : Sequencer) : (s.setSeq x).par = s.par := rfl
@[simp] theorem State.setSeq_setSeq (s : State) (x y : Sequencer) : (s.setSeq x).setSeq y = s.setSeq y := rfl
@[simp] theorem State.setSeq_same (s : State) : s.setSeq s.seq = s := rfl

/-! ### After `State.setCfg` -/

@[simp] theorem State.setCfg_br (s : State) (x : CfgRegs) : (s.setCfg x).br = s.br := rfl
@[simp] theorem State.setCfg_bi (s : State) (x : CfgRegs) : (s.setCfg x).bi = s.bi := rfl
@[simp] theorem State.setCfg_seq (s : State) (x : CfgRegs) : (s.setCfg x).seq = s.seq := rfl
@[simp] theorem State.setCfg_cfg (s : State) (x : CfgRegs) : (s.setCfg x).cfg = x := rfl
@[simp] theorem State.setCfg_fr (s : State) (x : CfgRegs) : (s.setCfg x).fr = s.fr := rfl
@[simp] theorem State.setCfg_tc (s : State) (x : CfgRegs) : (s.setCfg x).tc = s.tc := rfl
@[simp] theorem State.setCfg_ch (s : State) (x : CfgRegs) : (s.setCfg x).ch = s.ch := rfl
@[simp] theorem State.setCfg_pg (s : State) (x : CfgRegs) : (s.setCfg x).pg = s.pg := rfl
@[simp] theorem State.setCfg_ac3m (s : State) (x : CfgRegs) : (s.setCfg x).ac3m = s.ac3m := rfl
@[simp] theorem State.setCfg_ac3x (s : State) (x : CfgRegs) : (s.setCfg x).ac3x = s.ac3x := rfl
@[simp] theorem State.setCfg_cont (s : State) (x : CfgRegs) : (s.setCfg x).cont = s.cont := rfl
@[simp] theorem State.setCfg_desc (s : State) (x : CfgRegs) : (s.setCfg x).desc = s.desc := rfl
@[simp] theorem State.setCfg_src (s : State) (x : CfgRegs) : (s.setCfg x).src = s.src := rfl
@[simp] theorem State.setCfg_ev (s : State) (x : CfgRegs) : (s.setCfg x).ev = s.ev := rfl
@[simp] theorem State.setCfg_port (s : State) (x : CfgRegs) : (s.setCfg x).port = s.port := rfl
@[simp] theorem State.setCfg_ret (s : State) (x : CfgRegs) : (s.setCfg x).ret = s.ret := rfl
@[simp] theorem State.setCfg_lastErr (s : State) (x : CfgRegs) : (s.setCfg x).lastErr = s.lastErr := rfl
@[simp] theorem State.setCfg_pd (s : State) (x : CfgRegs) : (s.setCfg x).pd = s.pd := rfl
@[simp] theorem State.setCfg_par (s : State) (x : CfgRegs) : (s.setCfg x).par = s.par := rfl
@[simp] theorem State.setCfg_setCfg (s : State) (x y : CfgRegs) : (s.setCfg x).setCfg y = s.setCfg y := rfl
@[simp] theorem State.setCfg_same (s : State) : s.setCfg s.cfg = s := rfl

/-! ### After `State.setFr` -/

@[simp] theorem State.setFr_br (s : State) (x : FrameRegs) : (s.setFr x).br = s.br := rfl
@[simp] theorem State.setFr_bi (s : State) (x : FrameRegs) : (s.setFr x).bi = s.bi := rfl
@[simp] theorem State.setFr_seq (s : State) (x : FrameRegs) : (s.setFr x).seq = s.seq := rfl
@[simp] theorem State.setFr_cfg (s : State) (x : FrameRegs) : (s.setFr x).cfg = s.cfg := rfl
@[simp] theorem State.setFr_fr (s : State) (x : FrameRegs) : (s.setFr x).fr = x := rfl
@[simp] theorem State.setFr_tc (s : State) (x : FrameRegs) : (s.setFr x).tc = s.tc := rfl
@[simp] theorem State.setFr_ch (s : State) (x : FrameRegs) : (s.setFr x).ch = s.ch := rfl
@[simp] theorem State.setFr_pg (s : State) (x : FrameRegs) : (s.setFr x).pg = s.pg := rfl
@[simp] theorem State.setFr_ac3m (s : State) (x : FrameRegs) : (s.setFr x).ac3m = s.ac3m := rfl
@[simp] theorem State.setFr_ac3x (s : State) (x : FrameRegs) : (s.setFr x).ac3x = s.ac3x := rfl
@[simp] theorem State.setFr_cont (s : State) (x : FrameRegs) : (s.setFr x).cont = s.cont := rfl
@[simp] theorem State.setFr_desc (s : State) (x : FrameRegs) : (s.setFr x).desc = s.desc := rfl
@[simp] theorem State.setFr_src (s : State) (x : FrameRegs) : (s.setFr x).src = s.src := rfl
@[simp] theorem State.setFr_ev (s : State) (x : FrameRegs) : (s.setFr x).ev = s.ev := rfl
@[simp] theorem State.setFr_port (s : State) (x : FrameRegs) : (s.setFr x).port = s.port := rfl
@[simp] theorem State.setFr_ret (s : State) (x : FrameRegs) : (s.setFr x).ret = s.ret := rfl
@[simp] theorem State.setFr_lastErr (s : State) (x : FrameRegs) : (s.setFr x).lastErr = s.lastErr := rfl
@[simp] theorem State.setFr_pd (s : State) (x : FrameRegs) : (s.setFr x).pd = s.pd := rfl
@[simp] theorem State.setFr_par (s : State) (x : FrameRegs) : (s.setFr x).par = s.par := rfl
@[simp] theorem State.setFr_setFr (s : State) (x y : FrameRegs) : (s.setFr x).setFr y = s.setFr y := rfl
@[simp] theorem State.setFr_same (s : State) : s.setFr s.fr = s := rfl

/-! ### After `State.setTc` -/

@[simp] theorem State.setTc_br (s : State) (x : TcRegs) : (s.setTc x).br = s.br := rfl
@[simp] theorem State.setTc_bi (s : State) (x : TcRegs) : (s.setTc x).bi = s.bi := rfl
@[simp] theorem State.setTc_seq (s : State) (x : TcRegs) : (s.setTc x).seq = s.seq := rfl
@[simp] theorem State.setTc_cfg (s : State) (x : TcRegs) : (s.setTc x).cfg = s.cfg := rfl
@[simp] theorem State.setTc_fr (s : State) (x : TcRegs) : (s.setTc x).fr = s.fr := rfl
@[simp] theorem State.setTc_tc (s : State) (x : TcRegs) : (s.setTc x).tc = x := rfl
@[simp] theorem State.setTc_ch (s : State) (x : TcRegs) : (s.setTc x).ch = s.ch := rfl
@[simp] theorem State.setTc_pg (s : State) (x : TcRegs) : (s.setTc x).pg = s.pg := rfl
@[simp] theorem State.setTc_ac3m (s : State) (x : TcRegs) : (s.setTc x).ac3m = s.ac3m := rfl
@[simp] theorem State.setTc_ac3x (s : State) (x : TcRegs) : (s.setTc x).ac3x = s.ac3x := rfl
@[simp] theorem State.setTc_cont (s : State) (x : TcRegs) : (s.setTc x).cont = s.cont := rfl
@[simp] theorem State.setTc_desc (s : State) (x : TcRegs) : (s.setTc x).desc = s.desc := rfl
@[simp] theorem State.setTc_src (s : State) (x : TcRegs) : (s.setTc x).src = s.src := rfl
@[simp] theorem State.setTc_ev (s : State) (x : TcRegs) : (s.setTc x).ev = s.ev := rfl
@[simp] theorem State.setTc_port (s : State) (x : TcRegs) : (s.setTc x).port = s.port := rfl
@[simp] theorem State.setTc_ret (s : State) (x : TcRegs) : (s.setTc x).ret = s.ret := rfl
@[simp] theorem State.setTc_lastErr (s : State) (x : TcRegs) : (s.setTc x).lastErr = s.lastErr := rfl
@[simp] theorem State.setTc_pd (s : State) (x : TcRegs) : (s.setTc x).pd = s.pd := rfl
@[simp] theorem State.setTc_par (s : State) (x : TcRegs) : (s.setTc x).par = s.par := rfl
@[simp] theorem State.setTc_setTc (s : State) (x y : TcRegs) : (s.setTc x).setTc y = s.setTc y := rfl
@[simp] theorem State.setTc_same (s : State) : s.setTc s.tc = s := rfl

/-! ### After `State.setCh` -/

@[simp] theorem State.setCh_br (s : State) (x : ChanArrays) : (s.setCh x).br = s.br := rfl
@[simp] theorem State.setCh_bi (s : State) (x : ChanArrays) : (s.setCh x).bi = s.bi := rfl
@[simp] theorem State.setCh_seq (s : State) (x : ChanArrays) : (s.setCh x).seq = s.seq := rfl
@[simp] theorem State.setCh_cfg (s : State) (x : ChanArrays) : (s.setCh x).cfg = s.cfg := rfl
@[simp] theorem State.setCh_fr (s : State) (x : ChanArrays) : (s.setCh x).fr = s.fr := rfl
@[simp] theorem State.setCh_tc (s : State) (x : ChanArrays) : (s.setCh x).tc = s.tc := rfl
@[simp] theorem State.setCh_ch (s : State) (x : ChanArrays) : (s.setCh x).ch = x := rfl
@[simp] theorem State.setCh_pg (s : State) (x : ChanArrays) : (s.setCh x).pg = s.pg := rfl
@[simp] theorem State.setCh_ac3m (s : State) (x : ChanArrays) : (s.setCh x).ac3m = s.ac3m := rfl
@[simp] theorem State.setCh_ac3x (s : State) (x : ChanArrays) : (s.setCh x).ac3x = s.ac3x := rfl
@[simp] theorem State.setCh_cont (s : State) (x : ChanArrays) : (s.setCh x).cont = s.cont := rfl
@[simp] theorem State.setCh_desc (s : State) (x : ChanArrays) : (s.setCh x).desc = s.desc := rfl
@[simp] theorem State.setCh_src (s : State) (x : ChanArrays) : (s.setCh x).src = s.src := rfl
@[simp] theorem State.setCh_ev (s : State) (x : ChanArrays) : (s.setCh x).ev = s.ev := rfl
@[simp] theorem State.setCh_port (s : State) (x : ChanArrays) : (s.setCh x).port = s.port := rfl
@[simp] theorem State.setCh_ret (s : State) (x : ChanArrays) : (s.setCh x).ret = s.ret := rfl
@[simp] theorem State.setCh_lastErr (s : State) (x : ChanArrays) : (s.setCh x).lastErr = s.lastErr := rfl
@[simp] theorem State.setCh_pd (s : State) (x : ChanArrays) : (s.setCh x).pd = s.pd := rfl
@[simp] theorem State.setCh_par (s : State) (x : ChanArrays) : (s.setCh x).par = s.par := rfl
@[simp] theorem State.setCh_setCh (s : State) (x y : ChanArrays) : (s.setCh x).setCh y = s.setCh y := rfl
@[simp] theorem State.setCh_same (s : State) : s.setCh s.ch = s := rfl

/-! ### After `State.setPg` -/

@[simp] theorem State.setPg_br (s : State) (x : ProgArrays) : (s.setPg x).br = s.br := rfl
@[simp] theorem State.setPg_bi (s : State) (x : ProgArrays) : (s.setPg x).bi = s.bi := rfl
@[simp] theorem State.setPg_seq (s : State) (x : ProgArrays) : (s.setPg x).seq = s.seq := rfl
@[simp] theorem State.setPg_cfg (s : State) (x : ProgArrays) : (s.setPg x).cfg = s.cfg := rfl
@[simp] theorem State.setPg_fr (s : State) (x : ProgArrays) : (s.setPg x).fr = s.fr := rfl
@[simp] theorem State.setPg_tc (s : State) (x : ProgArrays) : (s.setPg x).tc = s.tc := rfl
@[simp] theorem State.setPg_ch (s : State) (x : ProgArrays) : (s.setPg x).ch = s.ch := rfl
@[simp] theorem State.setPg_pg (s : State) (x : ProgArrays) : (s.setPg x).pg = x := rfl
@[simp] theorem State.setPg_ac3m (s : State) (x : ProgArrays) : (s.setPg x).ac3m = s.ac3m := rfl
@[simp] theorem State.setPg_ac3x (s : State) (x : ProgArrays) : (s.setPg x).ac3x = s.ac3x := rfl
@[simp] theorem State.setPg_cont (s : State) (x : ProgArrays) : (s.setPg x).cont = s.cont := rfl
@[simp] theorem State.setPg_desc (s : State) (x : ProgArrays) : (s.setPg x).desc = s.desc := rfl
@[simp] theorem State.setPg_src (s : State) (x : ProgArrays) : (s.setPg x).src = s.src := rfl
@[simp] theorem State.setPg_ev (s : State) (x : ProgArrays) : (s.setPg x).ev = s.ev := rfl
@[simp] theorem State.setPg_port (s : State) (x : ProgArrays) : (s.setPg x).port = s.port := rfl
@[simp] theorem State.setPg_ret (s : State) (x : ProgArrays) : (s.setPg x).ret = s.ret := rfl
@[simp] theorem State.setPg_lastErr (s : State) (x : ProgArrays) : (s.setPg x).lastErr = s.lastErr := rfl
@[simp] theorem State.setPg_pd (s : State) (x : ProgArrays) : (s.setPg x).pd = s.pd := rfl
@[simp] theorem State.setPg_par (s : State) (x : ProgArrays) : (s.setPg x).par = s.par := rfl
@[simp] theorem State.setPg_setPg (s : State) (x y : ProgArrays) : (s.setPg x).setPg y = s.setPg y := rfl
@[simp] theorem State.setPg_same (s : State) : s.setPg s.pg = s := rfl

/-! ### After `State.setAc3m` -/

@[simp] theorem State.setAc3m_br (s : State) (x : Vector Ac3Rec 8) : (s.setAc3m x).br = s.br := rfl
@[simp] theorem State.setAc3m_bi (s : State) (x : Vector Ac3Rec 8) : (s.setAc3m x).bi = s.bi := rfl
@[simp] theorem State.setAc3m_seq (s : State) (x : Vector Ac3Rec 8) : (s.setAc3m x).seq = s.seq := rfl
@[simp] theorem State.setAc3m_cfg (s : State) (x : Vector Ac3Rec 8) : (s.setAc3m x).cfg = s.cfg := rfl
@[simp] theorem State.setAc3m_fr (s : State) (x : Vector Ac3Rec 8) : (s.setAc3m x).fr = s.fr := rfl
@[simp] theorem State.setAc3m_tc (s : State) (x : Vector Ac3Rec 8) : (s.setAc3m x).tc = s.tc := rfl
@[simp] theorem State.setAc3m_ch (s : State) (x : Vector Ac3Rec 8) : (s.setAc3m x).ch = s.ch := rfl
@[simp] theorem State.setAc3m_pg (s : State) (x : Vector Ac3Rec 8) : (s.setAc3m x).pg = s.pg := rfl
@[simp] theorem State.setAc3m_ac3m (s : State) (x : Vector Ac3Rec 8) : (s.setAc3m x).ac3m = x := rfl
@[simp] theorem State.setAc3m_ac3x (s : State) (x : Vector Ac3Rec 8) : (s.setAc3m x).ac3x = s.ac3x := rfl
@[simp] theorem State.setAc3m_cont (s : State) (x : Vector Ac3Rec 8) : (s.setAc3m x).cont = s.cont := rfl
@[simp] theorem State.setAc3m_desc (s : State) (x : Vector Ac3Rec 8) : (s.setAc3m x).desc = s.desc := rfl
@[simp] theorem State.setAc3m_src (s : State) (x : Vector Ac3Rec 8) : (s.setAc3m x).src = s.src := rfl
@[simp] theorem State.setAc3m_ev (s : State) (x : Vector Ac3Rec 8) : (s.setAc3m x).ev = s.ev := rfl
@[simp] theorem State.setAc3m_port (s : State) (x : Vector Ac3Rec 8) : (s.setAc3m x).port = s.port := rfl
@[simp] theorem State.setAc3m_ret (s : State) (x : Vector Ac3Rec 8) : (s.setAc3m x).ret = s.ret := rfl
@[simp] theorem State.setAc3m_lastErr (s : State) (x : Vector Ac3Rec 8) : (s.setAc3m x).lastErr = s.lastErr := rfl
@[simp] theorem State.setAc3m_pd (s : State) (x : Vector Ac3Rec 8) : (s.setAc3m x).pd = s.pd := rfl
@[simp] theorem State.setAc3m_par (s : State) (x : Vector Ac3Rec 8) : (s.setAc3m x).par = s.par := rfl
@[simp] theorem State.setAc3m_setAc3m (s : State) (x y : Vector Ac3Rec 8) : (s.setAc3m x).setAc3m y = s.setAc3m y := rfl
@[simp] theorem State.setAc3m_same (s : State) : s.setAc3m s.ac3m = s := rfl

/-! ### After `State.setAc3x` -/

@[simp] theorem State.setAc3x_br (s : State) (x : Vector Ac3Rec 8) : (s.setAc3x x).br = s.br := rfl
@[simp] theorem State.setAc3x_bi (s : State) (x : Vector Ac3Rec 8) : (s.setAc3x x).bi = s.bi := rfl
@[simp] theorem State.setAc3x_seq (s : State) (x : Vector Ac3Rec 8) : (s.setAc3x x).seq = s.seq := rfl
@[simp] theorem State.setAc3x_cfg (s : State) (x : Vector Ac3Rec 8) : (s.setAc3x x).cfg = s.cfg := rfl
@[simp] theorem State.setAc3x_fr (s : State) (x : Vector Ac3Rec 8) : (s.setAc3x x).fr = s.fr := rfl
@[simp] theorem State.setAc3x_tc (s : State) (x : Vector Ac3Rec 8) : (s.setAc3x x).tc = s.tc := rfl
@[simp] theorem State.setAc3x_ch (s : State) (x : Vector Ac3Rec 8) : (s.setAc3x x).ch = s.ch := rfl
@[simp] theorem State.setAc3x_pg (s : State) (x : Vector Ac3Rec 8) : (s.setAc3x x).pg = s.pg := rfl
@[simp] theorem State.setAc3x_ac3m (s : State) (x : Vector Ac3Rec 8) : (s.setAc3x x).ac3m = s.ac3m := rfl
@[simp] theorem State.setAc3x_ac3x (s : State) (x : Vector Ac3Rec 8) : (s.setAc3x x).ac3x = x := rfl
@[simp] theorem State.setAc3x_cont (s : State) (x : Vector Ac3Rec 8) : (s.setAc3x x).cont = s.cont := rfl
@[simp] theorem State.setAc3x_desc (s : State) (x : Vector Ac3Rec 8) : (s.setAc3x x).desc = s.desc := rfl
@[simp] theorem State.setAc3x_src (s : State) (x : Vector Ac3Rec 8) : (s.setAc3x x).src = s.src := rfl
@[simp] theorem State.setAc3x_ev (s : State) (x : Vector Ac3Rec 8) : (s.setAc3x x).ev = s.ev := rfl
@[simp] theorem State.setAc3x_port (s : State) (x : Vector Ac3Rec 8) : (s.setAc3x x).port = s.port := rfl
@[simp] theorem State.setAc3x_ret (s : State) (x : Vector Ac3Rec 8) : (s.setAc3x x).ret = s.ret := rfl
@[simp] theorem State.setAc3x_lastErr (s : State) (x : Vector Ac3Rec 8) : (s.setAc3x x).lastErr = s.lastErr := rfl
@[simp] theorem State.setAc3x_pd (s : State) (x : Vector Ac3Rec 8) : (s.setAc3x x).pd = s.pd := rfl
@[simp] theorem State.setAc3x_par (s : State) (x : Vector Ac3Rec 8) : (s.setAc3x x).par = s.par := rfl
@[simp] theorem State.setAc3x_setAc3x (s : State) (x y : Vector Ac3Rec 8) : (s.setAc3x x).setAc3x y = s.setAc3x y := rfl
@[simp] theorem State.setAc3x_same (s : State) : s.setAc3x s.ac3x = s := rfl

/-! ### After `State.setCont` -/

@[simp] theorem State.setCont_br (s : State) (x : Continuity) : (s.setCont x).br = s.br := rfl
@[simp] theorem State.setCont_bi (s : State) (x : Continuity) : (s.setCont x).bi = s.bi := rfl
@[simp] theorem State.setCont_seq (s : State) (x : Continuity) : (s.setCont x).seq = s.seq := rfl
@[simp] theorem State.setCont_cfg (s : State) (x : Continuity) : (s.setCont x).cfg = s.cfg := rfl
@[simp] theorem State.setCont_fr (s : State) (x : Continuity) : (s.setCont x).fr = s.fr := rfl
@[simp] theorem State.setCont_tc (s : State) (x : Continuity) : (s.setCont x).tc = s.tc := rfl
@[simp] theorem State.setCont_ch (s : State) (x : Continuity) : (s.setCont x).ch = s.ch := rfl
@[simp] theorem State.setCont_pg (s : State) (x : Continuity) : (s.setCont x).pg = s.pg := rfl
@[simp] theorem State.setCont_ac3m (s : State) (x : Continuity) : (s.setCont x).ac3m = s.ac3m := rfl
@[simp] theorem State.setCont_ac3x (s : State) (x : Continuity) : (s.setCont x).ac3x = s.ac3x := rfl
@[simp] theorem State.setCont_cont (s : State) (x : Continuity) : (s.setCont x).cont = x := rfl
@[simp] theorem State.setCont_desc (s : State) (x : Continuity) : (s.setCont x).desc = s.desc := rfl
@[simp] theorem State.setCont_src (s : State) (x : Continuity) : (s.setCont x).src = s.src := rfl
@[simp] theorem State.setCont_ev (s : State) (x : Continuity) : (s.setCont x).ev = s.ev := rfl
@[simp] theorem State.setCont_port (s : State) (x : Continuity) : (s.setCont x).port = s.port := rfl
@[simp] theorem State.setCont_ret (s : State) (x : Continuity) : (s.setCont x).ret = s.ret := rfl
@[simp] theorem State.setCont_lastErr (s : State) (x : Continuity) : (s.setCont x).lastErr = s.lastErr := rfl
@[simp] theorem State.setCont_pd (s : State) (x : Continuity) : (s.setCont x).pd = s.pd := rfl
@[simp] theorem State.setCont_par (s : State) (x : Continuity) : (s.setCont x).par = s.par := rfl
@[simp] theorem State.setCont_setCont (s : State) (x y : Continuity) : (s.setCont x).setCont y = s.setCont y := rfl
@[simp] theorem State.setCont_same (s : State) : s.setCont s.cont = s := rfl

/-! ### After `State.setDesc` -/

@[simp] theorem State.setDesc_br (s : State) (x : Vector DescText 8) : (s.setDesc x).br = s.br := rfl
@[simp] theorem State.setDesc_bi (s : State) (x : Vector DescText 8) : (s.setDesc x).bi = s.bi := rfl
@[simp] theorem State.setDesc_seq (s : State) (x : Vector DescText 8) : (s.setDesc x).seq = s.seq := rfl
@[simp] theorem State.setDesc_cfg (s : State) (x : Vector DescText 8) : (s.setDesc x).cfg = s.cfg := rfl
@[simp] theorem State.setDesc_fr (s : State) (x : Vector DescText 8) : (s.setDesc x).fr = s.fr := rfl
@[simp] theorem State.setDesc_tc (s : State) (x : Vector DescText 8) : (s.setDesc x).tc = s.tc := rfl
@[simp] theorem State.setDesc_ch (s : State) (x : Vector DescText 8) : (s.setDesc x).ch = s.ch := rfl
@[simp] theorem State.setDesc_pg (s : State) (x : Vector DescText 8) : (s.setDesc x).pg = s.pg := rfl
@[simp] theorem State.setDesc_ac3m (s : State) (x : Vector DescText 8) : (s.setDesc x).ac3m = s.ac3m := rfl
@[simp] theorem State.setDesc_ac3x (s : State) (x : Vector DescText 8) : (s.setDesc x).ac3x = s.ac3x := rfl
@[simp] theorem State.setDesc_cont (s : State) (x : Vector DescText 8) : (s.setDesc x).cont = s.cont := rfl
@[simp] theorem State.setDesc_desc (s : State) (x : Vector DescText 8) : (s.setDesc x).desc = x := rfl
@[simp] theorem State.setDesc_src (s : State) (x : Vector DescText 8) : (s.setDesc x).src = s.src := rfl
@[simp] theorem State.setDesc_ev (s : State) (x : Vector DescText 8) : (s.setDesc x).ev = s.ev := rfl
@[simp] theorem State.setDesc_port (s : State) (x : Vector DescText 8) : (s.setDesc x).port = s.port := rfl
@[simp] theorem State.setDesc_ret (s : State) (x : Vector DescText 8) : (s.setDesc x).ret = s.ret := rfl
@[simp] theorem State.setDesc_lastErr (s : State) (x : Vector DescText 8) : (s.setDesc x).lastErr = s.lastErr := rfl
@[simp] theorem State.setDesc_pd (s : State) (x : Vector DescText 8) : (s.setDesc x).pd = s.pd := rfl
@[simp] theorem State.setDesc_par (s : State) (x : Vector DescText 8) : (s.setDesc x).par = s.par := rfl
@[simp] theorem State.setDesc_setDesc (s : State) (x y : Vector DescText 8) : (s.setDesc x).setDesc y = s.setDesc y := rfl
@[simp] theorem State.setDesc_same (s : State) : s.setDesc s.desc = s := rfl

/-! ### After `State.setSrc` -/

@[simp] theorem State.setSrc_br (s : State) (x : Source) : (s.setSrc x).br = s.br := rfl
@[simp] theorem State.setSrc_bi (s : State) (x : Source) : (s.setSrc x).bi = s.bi := rfl
@[simp] theorem State.setSrc_seq (s : State) (x : Source) : (s.setSrc x).seq = s.seq := rfl
@[simp] theorem State.setSrc_cfg (s : State) (x : Source) : (s.setSrc x).cfg = s.cfg := rfl
@[simp] theorem State.setSrc_fr (s : State) (x : Source) : (s.setSrc x).fr = s.fr := rfl
@[simp] theorem State.setSrc_tc (s : State) (x : Source) : (s.setSrc x).tc = s.tc := rfl
@[simp] theorem State.setSrc_ch (s : State) (x : Source) : (s.setSrc x).ch = s.ch := rfl
@[simp] theorem State.setSrc_pg (s : State) (x : Source) : (s.setSrc x).pg = s.pg := rfl
@[simp] theorem State.setSrc_ac3m (s : State) (x : Source) : (s.setSrc x).ac3m = s.ac3m := rfl
@[simp] theorem State.setSrc_ac3x (s : State) (x : Source) : (s.setSrc x).ac3x = s.ac3x := rfl
@[simp] theorem State.setSrc_cont (s : State) (x : Source) : (s.setSrc x).cont = s.cont := rfl
@[simp] theorem State.setSrc_desc (s : State) (x : Source) : (s.setSrc x).desc = s.desc := rfl
@[simp] theorem State.setSrc_src (s : State) (x : Source) : (s.setSrc x).src = x := rfl
@[simp] theorem State.setSrc_ev (s : State) (x : Source) : (s.setSrc x).ev = s.ev := rfl
@[simp] theorem State.setSrc_port (s : State) (x : Source) : (s.setSrc x).port = s.port := rfl
@[simp] theorem State.setSrc_ret (s : State) (x : Source) : (s.setSrc x).ret = s.ret := rfl
@[simp] theorem State.setSrc_lastErr (s : State) (x : Source) : (s.setSrc x).lastErr = s.lastErr := rfl
@[simp] theorem State.setSrc_pd (s : State) (x : Source) : (s.setSrc x).pd = s.pd := rfl
@[simp] theorem State.setSrc_par (s : State) (x : Source) : (s.setSrc x).par = s.par := rfl
@[simp] theorem State.setSrc_setSrc (s : State) (x y : Source) : (s.setSrc x).setSrc y = s.setSrc y := rfl
@[simp] theorem State.setSrc_same (s : State) : s.setSrc s.src = s := rfl

/-! ### After `State.setEv` -/

@[simp] theorem State.setEv_br (s : State) (x : List Event) : (s.setEv x).br = s.br := rfl
@[simp] theorem State.setEv_bi (s : State) (x : List Event) : (s.setEv x).bi = s.bi := rfl
@[simp] theorem State.setEv_seq (s : State) (x : List Event) : (s.setEv x).seq = s.seq := rfl
@[simp] theorem State.setEv_cfg (s : State) (x : List Event) : (s.setEv x).cfg = s.cfg := rfl
@[simp] theorem State.setEv_fr (s : State) (x : List Event) : (s.setEv x).fr = s.fr := rfl
@[simp] theorem State.setEv_tc (s : State) (x : List Event) : (s.setEv x).tc = s.tc := rfl
@[simp] theorem State.setEv_ch (s : State) (x : List Event) : (s.setEv x).ch = s.ch := rfl
@[simp] theorem State.setEv_pg (s : State) (x : List Event) : (s.setEv x).pg = s.pg := rfl
@[simp] theorem State.setEv_ac3m (s : State) (x : List Event) : (s.setEv x).ac3m = s.ac3m := rfl
@[simp] theorem State.setEv_ac3x (s : State) (x : List Event) : (s.setEv x).ac3x = s.ac3x := rfl
@[simp] theorem State.setEv_cont (s : State) (x : List Event) : (s.setEv x).cont = s.cont := rfl
@[simp] theorem State.setEv_desc (s : State) (x : List Event) : (s.setEv x).desc = s.desc := rfl
@[simp] theorem State.setEv_src (s : State) (x : List Event) : (s.setEv x).src = s.src := rfl
@[simp] theorem State.setEv_ev (s : State) (x : List Event) : (s.setEv x).ev = x := rfl
@[simp] theorem State.setEv_port (s : State) (x : List Event) : (s.setEv x).port = s.port := rfl
@[simp] theorem State.setEv_ret (s : State) (x : List Event) : (s.setEv x).ret = s.ret := rfl
@[simp] theorem State.setEv_lastErr (s : State) (x : List Event) : (s.setEv x).lastErr = s.lastErr := rfl
@[simp] theorem State.setEv_pd (s : State) (x : List Event) : (s.setEv x).pd = s.pd := rfl
@[simp] theorem State.setEv_par (s : State) (x : List Event) : (s.setEv x).par = s.par := rfl
@[simp] theorem State.setEv_setEv (s : State) (x y : List Event) : (s.setEv x).setEv y = s.setEv y := rfl
@[simp] theorem State.setEv_same (s : State) : s.setEv s.ev = s := rfl

/-! ### After `State.setPort` -/

@[simp] theorem State.setPort_br (s : State) (x : List Request) : (s.setPort x).br = s.br := rfl
@[simp] theorem State.setPort_bi (s : State) (x : List Request) : (s.setPort x).bi = s.bi := rfl
@[simp] theorem State.setPort_seq (s : State) (x : List Request) : (s.setPort x).seq = s.seq := rfl
@[simp] theorem State.setPort_cfg (s : State) (x : List Request) : (s.setPort x).cfg = s.cfg := rfl
@[simp] theorem State.setPort_fr (s : State) (x : List Request) : (s.setPort x).fr = s.fr := rfl
@[simp] theorem State.setPort_tc (s : State) (x : List Request) : (s.setPort x).tc = s.tc := rfl
@[simp] theorem State.setPort_ch (s : State) (x : List Request) : (s.setPort x).ch = s.ch := rfl
@[simp] theorem State.setPort_pg (s : State) (x : List Request) : (s.setPort x).pg = s.pg := rfl
@[simp] theorem State.setPort_ac3m (s : State) (x : List Request) : (s.setPort x).ac3m = s.ac3m := rfl
@[simp] theorem State.setPort_ac3x (s : State) (x : List Request) : (s.setPort x).ac3x = s.ac3x := rfl
@[simp] theorem State.setPort_cont (s : State) (x : List Request) : (s.setPort x).cont = s.cont := rfl
@[simp] theorem State.setPort_desc (s : State) (x : List Request) : (s.setPort x).desc = s.desc := rfl
@[simp] theorem State.setPort_src (s : State) (x : List Request) : (s.setPort x).src = s.src := rfl
@[simp] theorem State.setPort_ev (s : State) (x : List Request) : (s.setPort x).ev = s.ev := rfl
@[simp] theorem State.setPort_port (s : State) (x : List Request) : (s.setPort x).port = x := rfl
@[simp] theorem State.setPort_ret (s : State) (x : List Request) : (s.setPort x).ret = s.ret := rfl
@[simp] theorem State.setPort_lastErr (s : State) (x : List Request) : (s.setPort x).lastErr = s.lastErr := rfl
@[simp] theorem State.setPort_pd (s : State) (x : List Request) : (s.setPort x).pd = s.pd := rfl
@[simp] theorem State.setPort_par (s : State) (x : List Request) : (s.setPort x).par = s.par := rfl
@[simp] theorem State.setPort_setPort (s : State) (x y : List Request) : (s.setPort x).setPort y = s.setPort y := rfl
@[simp] theorem State.setPort_same (s : State) : s.setPort s.port = s := rfl

/-! ### After `State.setRet` -/

@[simp] theorem State.setRet_br (s : State) (x : Ret) : (s.setRet x).br = s.br := rfl
@[simp] theorem State.setRet_bi (s : State) (x : Ret) : (s.setRet x).bi = s.bi := rfl
@[simp] theorem State.setRet_seq (s : State) (x : Ret) : (s.setRet x).seq = s.seq := rfl
@[simp] theorem State.setRet_cfg (s : State) (x : Ret) : (s.setRet x).cfg = s.cfg := rfl
@[simp] theorem State.setRet_fr (s : State) (x : Ret) : (s.setRet x).fr = s.fr := rfl
@[simp] theorem State.setRet_tc (s : State) (x : Ret) : (s.setRet x).tc = s.tc := rfl
@[simp] theorem State.setRet_ch (s : State) (x : Ret) : (s.setRet x).ch = s.ch := rfl
@[simp] theorem State.setRet_pg (s : State) (x : Ret) : (s.setRet x).pg = s.pg := rfl
@[simp] theorem State.setRet_ac3m (s : State) (x : Ret) : (s.setRet x).ac3m = s.ac3m := rfl
@[simp] theorem State.setRet_ac3x (s : State) (x : Ret) : (s.setRet x).ac3x = s.ac3x := rfl
@[simp] theorem State.setRet_cont (s : State) (x : Ret) : (s.setRet x).cont = s.cont := rfl
@[simp] theorem State.setRet_desc (s : State) (x : Ret) : (s.setRet x).desc = s.desc := rfl
@[simp] theorem State.setRet_src (s : State) (x : Ret) : (s.setRet x).src = s.src := rfl
@[simp] theorem State.setRet_ev (s : State) (x : Ret) : (s.setRet x).ev = s.ev := rfl
@[simp] theorem State.setRet_port (s : State) (x : Ret) : (s.setRet x).port = s.port := rfl
@[simp] theorem State.setRet_ret (s : State) (x : Ret) : (s.setRet x).ret = x := rfl
@[simp] theorem State.setRet_lastErr (s : State) (x : Ret) : (s.setRet x).lastErr = s.lastErr := rfl
@[simp] theorem State.setRet_pd (s : State) (x : Ret) : (s.setRet x).pd = s.pd := rfl
@[simp] theorem State.setRet_par (s : State) (x : Ret) : (s.setRet x).par = s.par := rfl
@[simp] theorem State.setRet_setRet (s : State) (x y : Ret) : (s.setRet x).setRet y = s.setRet y := rfl
@[simp] theorem State.setRet_same (s : State) : s.setRet s.ret = s := rfl

/-! ### After `State.setLastErr` -/

@[simp] theorem State.setLastErr_br (s : State) (x : Option (ErrVal × SeqState)) : (s.setLastErr x).br = s.br := rfl
@[simp] theorem State.setLastErr_bi (s : State) (x : Option (ErrVal × SeqState)) : (s.setLastErr x).bi = s.bi := rfl
@[simp] theorem State.setLastErr_seq (s : State) (x : Option (ErrVal × SeqState)) : (s.setLastErr x).seq = s.seq := rfl
@[simp] theorem State.setLastErr_cfg (s : State) (x : Option (ErrVal × SeqState)) : (s.setLastErr x).cfg = s.cfg := rfl
@[simp] theorem State.setLastErr_fr (s : State) (x : Option (ErrVal × SeqState)) : (s.setLastErr x).fr = s.fr := rfl
@[simp] theorem State.setLastErr_tc (s : State) (x : Option (ErrVal × SeqState)) : (s.setLastErr x).tc = s.tc := rfl
@[simp] theorem State.setLastErr_ch (s : State) (x : Option (ErrVal × SeqState)) : (s.setLastErr x).ch = s.ch := rfl
@[simp] theorem State.setLastErr_pg (s : State) (x : Option (ErrVal × SeqState)) : (s.setLastErr x).pg = s.pg := rfl
@[simp] theorem State.setLastErr_ac3m (s : State) (x : Option (ErrVal × SeqState)) : (s.setLastErr x).ac3m = s.ac3m := rfl
@[simp] theorem State.setLastErr_ac3x (s : State) (x : Option (ErrVal × SeqState)) : (s.setLastErr x).ac3x = s.ac3x := rfl
@[simp] theorem State.setLastErr_cont (s : State) (x : Option (ErrVal × SeqState)) : (s.setLastErr x).cont = s.cont := rfl
@[simp] theorem State.setLastErr_desc (s : State) (x : Option (ErrVal × SeqState)) : (s.setLastErr x).desc = s.desc := rfl
@[simp] theorem State.setLastErr_src (s : State) (x : Option (ErrVal × SeqState)) : (s.setLastErr x).src = s.src := rfl
@[simp] theorem State.setLastErr_ev (s : State) (x : Option (ErrVal × SeqState)) : (s.setLastErr x).ev = s.ev := rfl
@[simp] theorem State.setLastErr_port (s : State) (x : Option (ErrVal × SeqState)) : (s.setLastErr x).port = s.port := rfl
@[simp] theorem State.setLastErr_ret (s : State) (x : Option (ErrVal × SeqState)) : (s.setLastErr x).ret = s.ret := rfl
@[simp] theorem State.setLastErr_lastErr (s : State) (x : Option (ErrVal × SeqState)) : (s.setLastErr x).lastErr = x := rfl
@[simp] theorem State.setLastErr_pd (s : State) (x : Option (ErrVal × SeqState)) : (s.setLastErr x).pd = s.pd := rfl
@[simp] theorem State.setLastErr_par (s : State) (x : Option (ErrVal × SeqState)) : (s.setLastErr x).par = s.par := rfl
@[simp] theorem State.setLastErr_setLastErr (s : State) (x y : Option (ErrVal × SeqState)) : (s.setLastErr x).setLastErr y = s.setLastErr y := rfl
@[simp] theorem State.setLastErr_same (s : State) : s.setLastErr s.lastErr = s := rfl

/-! ### After `State.setPd` -/

@[simp] theorem State.setPd_br (s : State) (x : Option Depth) : (s.setPd x).br = s.br := rfl
@[simp] theorem State.setPd_bi (s : State) (x : Option Depth) : (s.setPd x).bi = s.bi := rfl
@[simp] theorem State.setPd_seq (s : State) (x : Option Depth) : (s.setPd x).seq = s.seq := rfl
@[simp] theorem State.setPd_cfg (s : State) (x : Option Depth) : (s.setPd x).cfg = s.cfg := rfl
@[simp] theorem State.setPd_fr (s : State) (x : Option Depth) : (s.setPd x).fr = s.fr := rfl
@[simp] theorem State.setPd_tc (s : State) (x : Option Depth) : (s.setPd x).tc = s.tc := rfl
@[simp] theorem State.setPd_ch (s : State) (x : Option Depth) : (s.setPd x).ch = s.ch := rfl
@[simp] theorem State.setPd_pg (s : State) (x : Option Depth) : (s.setPd x).pg = s.pg := rfl
@[simp] theorem State.setPd_ac3m (s : State) (x : Option Depth) : (s.setPd x).ac3m = s.ac3m := rfl
@[simp] theorem State.setPd_ac3x (s : State) (x : Option Depth) : (s.setPd x).ac3x = s.ac3x := rfl
@[simp] theorem State.setPd_cont (s : State) (x : Option Depth) : (s.setPd x).cont = s.cont := rfl
@[simp] theorem State.setPd_desc (s : State) (x : Option Depth) : (s.setPd x).desc = s.desc := rfl
@[simp] theorem State.setPd_src (s : State) (x : Option Depth) : (s.setPd x).src = s.src := rfl
@[simp] theorem State.setPd_ev (s : State) (x : Option Depth) : (s.setPd x).ev = s.ev := rfl
@[simp] theorem State.setPd_port (s : State) (x : Option Depth) : (s.setPd x).port = s.port := rfl
@[simp] theorem State.setPd_ret (s : State) (x : Option Depth) : (s.setPd x).ret = s.ret := rfl
@[simp] theorem State.setPd_lastErr (s : State) (x : Option Depth) : (s.setPd x).lastErr = s.lastErr := rfl
@[simp] theorem State.setPd_pd (s : State) (x : Option Depth) : (s.setPd x).pd = x := rfl
@[simp] theorem State.setPd_par (s : State) (x : Option Depth) : (s.setPd x).par = s.par := rfl
@[simp] theorem State.setPd_setPd (s : State) (x y : Option Depth) : (s.setPd x).setPd y = s.setPd y := rfl
@[simp] theorem State.setPd_same (s : State) : s.setPd s.pd = s := rfl

end Sys2Proof.Machine
end

