-- ==== Sys2Proof/Laws/Ops.lean ====
section
/-! SUPPORT. What each shared operation can do, said once: how an operation in `do` notation runs, and for each named
operation of Ops, Operands and BitReader its outcomes. Proofs cite these and unfold none of the operations. -/

namespace Sys2Proof.Machine

/-! ### How operations run -/

theorem op_bind {α β : Type} (x : Op α) (f : α → Op β) (s : State) :
    (x >>= f) s = match x s with
      | .ok a t => f a t
      | .error e t => .error e t := by
  show EStateM.bind x f s = _
  unfold EStateM.bind
  cases x s <;> rfl

theorem op_bind_ok {α β : Type} {x : Op α} {f : α → Op β} {s t : State} {a : α} (h : x s = .ok a t) :
    (x >>= f) s = f a t := by rw [op_bind, h]

theorem op_bind_error {α β : Type} {x : Op α} {f : α → Op β} {s t : State} {e : Abort} (h : x s = .error e t) :
    (x >>= f) s = .error e t := by rw [op_bind, h]

/-- A sequence that ends normally: both parts did. -/
theorem op_bind_eq_ok {α β : Type} {x : Op α} {f : α → Op β} {s u : State} {b : β} (h : (x >>= f) s = .ok b u) :
    ∃ a t, x s = .ok a t ∧ f a t = .ok b u := by
  rw [op_bind] at h
  cases hx : x s with
  | ok a t => rw [hx] at h; exact ⟨a, t, rfl, h⟩
  | error e t => rw [hx] at h; cases h

/-- A sequence that ends early: its first part did, or its second did. -/
theorem op_bind_eq_error {α β : Type} {x : Op α} {f : α → Op β} {s u : State} {e : Abort}
    (h : (x >>= f) s = .error e u) :
    x s = .error e u ∨ ∃ a t, x s = .ok a t ∧ f a t = .error e u := by
  rw [op_bind] at h
  cases hx : x s with
  | ok a t => rw [hx] at h; exact .inr ⟨a, t, rfl, h⟩
  | error e t => rw [hx] at h; cases h; exact .inl rfl

@[simp] theorem op_pure {α : Type} (a : α) (s : State) : (pure a : Op α) s = .ok a s := rfl
@[simp] theorem op_get (s : State) : (get : Op State) s = .ok s s := rfl
@[simp] theorem update_run (f : State → State) (s : State) : update f s = .ok () (f s) := rfl
@[simp] theorem raiseErr_run {α : Type} (e : ErrVal) (s : State) : (raiseErr e : Op α) s = .error (.raised e) s := rfl
@[simp] theorem refuse_run {α : Type} (r : Refusal) (s : State) : (refuse r : Op α) s = .error (.refused r) s := rfl
@[simp] theorem emitEvent_run (e : Event) (s : State) : emitEvent e s = .ok () (s.setEv (s.ev ++ [e])) := rfl
@[simp] theorem updBr_run (f : BitReader → BitReader) (s : State) : updBr f s = .ok () (s.setBr (f s.br)) := rfl
@[simp] theorem updSeq_run (f : Sequencer → Sequencer) (s : State) : updSeq f s = .ok () (s.setSeq (f s.seq)) := rfl
@[simp] theorem updFr_run (f : FrameRegs → FrameRegs) (s : State) : updFr f s = .ok () (s.setFr (f s.fr)) := rfl
@[simp] theorem updTc_run (f : TcRegs → TcRegs) (s : State) : updTc f s = .ok () (s.setTc (f s.tc)) := rfl
@[simp] theorem updCh_run (f : ChanArrays → ChanArrays) (s : State) : updCh f s = .ok () (s.setCh (f s.ch)) := rfl
@[simp] theorem updPg_run (f : ProgArrays → ProgArrays) (s : State) : updPg f s = .ok () (s.setPg (f s.pg)) := rfl
@[simp] theorem updSrc_run (f : Source → Source) (s : State) : updSrc f s = .ok () (s.setSrc (f s.src)) := rfl

@[simp] theorem enter_run (st : SeqState) (s : State) :
    enter st s = .ok () (s.setSeq { s.seq with ST := st, BUSY := true }) := rfl

@[simp] theorem whenOp_true (x : Op Unit) : whenOp true x = x := rfl
@[simp] theorem whenOp_false (x : Op Unit) : whenOp false x = pure () := rfl

/-- A conditional update. -/
theorem whenOp_update (c : Bool) (f : State → State) (s : State) :
    whenOp c (update f) s = .ok () (if c then f s else s) := by cases c <;> rfl

/-- A conditional event. -/
theorem whenOp_emit (c : Bool) (e : Event) (s : State) :
    whenOp c (emitEvent e) s = .ok () (s.setEv (s.ev ++ if c then [e] else [])) := by
  cases c
  · rw [whenOp_false, op_pure, if_neg (by decide), List.append_nil]
    rfl
  · rfl

theorem forEach_nil {α : Type} (f : α → Op Unit) (s : State) : forEach f [] s = .ok () s := rfl

theorem forEach_cons {α : Type} (f : α → Op Unit) (a : α) (as : List α) (s : State) :
    forEach f (a :: as) s = match f a s with
      | .ok _ t => forEach f as t
      | .error e t => .error e t := by
  rw [forEach, op_bind]
  cases f a s <;> rfl

theorem repeatOp_zero (x : Op Unit) (s : State) : repeatOp x 0 s = .ok () s := rfl

theorem repeatOp_succ (x : Op Unit) (n : Nat) (s : State) :
    repeatOp x (n + 1) s = match x s with
      | .ok _ t => repeatOp x n t
      | .error e t => .error e t := by
  rw [repeatOp, op_bind]
  cases x s <;> rfl

/-- A loop of updates is a fold. -/
theorem forEach_update {α : Type} (f : α → State → State) (as : List α) (s : State) :
    forEach (fun a => update (f a)) as s = .ok () (as.foldl (fun t a => f a t) s) := by
  induction as generalizing s with
  | nil => rfl
  | cons a as ih => rw [forEach_cons]; exact ih (f a s)

/-- A loop whose turns all end normally, the state before each turn being where the last one left it. -/
theorem forEach_ok {α : Type} (f : α → Op Unit) (g : α → State → State) (P : State → Prop) :
    ∀ (as : List α) (s : State), P s → (∀ a ∈ as, ∀ t, P t → f a t = .ok () (g a t) ∧ P (g a t)) →
      forEach f as s = .ok () (as.foldl (fun t a => g a t) s) ∧ P (as.foldl (fun t a => g a t) s)
  | [], s, hs, _ => ⟨rfl, hs⟩
  | a :: as, s, hs, h => by
    obtain ⟨h1, h2⟩ := h a List.mem_cons_self s hs
    rw [forEach_cons, h1]
    exact forEach_ok f g P as (g a s) h2 fun b hb => h b (List.mem_cons_of_mem a hb)

/-! ### Running an operation as an instruction -/

theorem runOp_ok {x : Op Unit} {s t : State} (h : x s = .ok () t) : runOp x s = .next t := by rw [runOp, h]

theorem runOp_raised {x : Op Unit} {s t : State} {e : ErrVal} (h : x s = .error (.raised e) t) :
    runOp x s = .next (t.latch e) := by rw [runOp, h]

theorem runOp_refused {x : Op Unit} {s t : State} {r : Refusal} (h : x s = .error (.refused r) t) :
    runOp x s = .refused r := by rw [runOp, h]

theorem runOp_faulted {x : Op Unit} {s t : State} {f : Fault} (h : x s = .error (.faulted f) t) :
    runOp x s = .fault f := by rw [runOp, h]

/-- Whatever answers a next state ran to its end or raised. -/
theorem runOp_eq_next {x : Op Unit} {s t : State} (h : runOp x s = .next t) :
    x s = .ok () t ∨ ∃ e u, x s = .error (.raised e) u ∧ t = u.latch e := by
  rw [runOp] at h
  split at h
  · rename_i u hx
    cases h
    exact .inl hx
  · rename_i e u hx
    cases h
    exact .inr ⟨e, u, hx, rfl⟩
  · cases h
  · cases h

/-! ### The Sample Source -/

/-- SrcReadWord: the next word, or EndOfData and no change (20_memory R63). -/
theorem srcReadWordOp_run (s : State) :
    srcReadWordOp s =
      if s.src.POS + s.sampleBytes ≤ s.src.MEM.len then
        .ok (some (wordOfBytes (s.src.MEM.bytesFrom s.src.POS s.sampleBytes)))
          (s.setSrc { s.src with POS := s.src.POS + s.sampleBytes })
      else .ok none s := by
  rw [srcReadWordOp, Memory.read]
  split_ifs <;> rfl

/-- Every word of the stream moves the position by a whole word (20_memory R63). -/
theorem srcReadWordOp_some {s t : State} {w : Word} (h : srcReadWordOp s = .ok (some w) t) :
    s.src.POS + s.sampleBytes ≤ s.src.MEM.len ∧
      w = wordOfBytes (s.src.MEM.bytesFrom s.src.POS s.sampleBytes) ∧
      t = s.setSrc { s.src with POS := s.src.POS + s.sampleBytes } := by
  rw [srcReadWordOp_run] at h
  split_ifs at h with hle
  · cases h
    exact ⟨hle, rfl, rfl⟩
  · cases h

@[simp] theorem srcMarkOp_run (s : State) :
    srcMarkOp s = .ok () (s.setSrc { s.src with MARKPOS := s.src.POS, MARK_V := true }) := rfl

/-- SrcReset goes back to a pending mark (20_memory R65); without one it stops (log 15). -/
theorem srcResetOp_run (s : State) :
    srcResetOp s =
      if s.src.MARK_V then .ok () (s.setSrc { s.src with POS := s.src.MARKPOS }) else .error (.refused .noMark) s := rfl

@[simp] theorem srcAlignOp_run (s : State) :
    srcAlignOp s = .ok () (s.setSrc { s.src with POS := s.src.alignPos }) := rfl

/-! ### The bit reader -/

theorem needDepth_some {s : State} {d : Depth} (h : s.br.DEPTH = some d) : needDepth s = .ok d s := by
  rw [needDepth, h]

theorem needDepth_none {s : State} (h : s.br.DEPTH = none) : needDepth s = .error (.refused .noDepth) s := by
  rw [needDepth, h]

/-- PULLWORD with room in the residual buffer: one word, or MID_FIELD and no change (40_bitreader R133). -/
theorem pullwordOp_run {s : State} {d : Depth} (hd : s.br.DEPTH = some d) (hroom : s.br.RESCNT + d.bits ≤ 55) :
    pullwordOp s =
      if s.src.POS + s.sampleBytes ≤ s.src.MEM.len then
        .ok () ((s.setSrc { s.src with POS := s.src.POS + s.sampleBytes }).setBr
          (s.br.pull d s.sampleBytes (wordOfBytes (s.src.MEM.bytesFrom s.src.POS s.sampleBytes))))
      else .error (.raised .midField) s := by
  have hr : needRoom d s = .ok () s := by rw [needRoom, if_pos hroom]
  rw [pullwordOp, op_bind_ok (needDepth_some hd), op_bind_ok hr, op_bind, srcReadWordOp_run]
  by_cases h : s.src.POS + s.sampleBytes ≤ s.src.MEM.len
  · rw [if_pos h, if_pos h]
    rfl
  · rw [if_neg h, if_neg h]
    rfl

/-- Delivering bits that are there (40_bitreader R134). -/
theorem takeBits_run (n : Nat) (s : State) :
    takeBits n s = .ok (BitVec.ofNat n (s.br.RES.toNat >>> (s.br.RESCNT - n)))
      (s.setBr { s.br with
        RES := BitVec.ofNat 64 (s.br.RES.toNat % 2 ^ (s.br.RESCNT - n))
        RESCNT := s.br.RESCNT - n
        BITCNT := s.br.BITCNT + n }) := rfl

/-- GETBITS of a width no rule requests (40_bitreader R134; log 13). -/
theorem getbitsOp_width {n : Nat} (h : ¬(1 ≤ n ∧ n ≤ 32)) (s : State) :
    getbitsOp n s = .error (.refused (.getbitsWidth n)) s := by
  rw [getbitsOp, if_neg h]
  rfl

/-- GETBITS before any depth is set (40_bitreader R130; log 12). -/
theorem getbitsOp_noDepth {n : Nat} (hn : 1 ≤ n ∧ n ≤ 32) {s : State} (h : s.br.DEPTH = none) :
    getbitsOp n s = .error (.refused .noDepth) s := by
  rw [getbitsOp, if_pos hn, op_bind_error (needDepth_none h)]

/-- GETBITS with the depth set: at most two pulls, then the bits (40_bitreader R134). -/
theorem getbitsOp_depth {n : Nat} (hn : 1 ≤ n ∧ n ≤ 32) {s : State} {d : Depth} (h : s.br.DEPTH = some d) :
    getbitsOp n s = (pullIfShort n >>= fun _ => pullIfShort n >>= fun _ => takeBits n) s := by
  rw [getbitsOp, if_pos hn, op_bind_ok (needDepth_some h)]

theorem dropBits_ok {n : Nat} {s t : State} {v : BitVec n} (h : getbitsOp n s = .ok v t) : dropBits n s = .ok () t := by
  rw [dropBits, op_bind_ok h]
  rfl

/-- SKIPBITS(0) does nothing (40_bitreader R135). -/
theorem skipbitsOp_zero (s : State) : skipbitsOp 0 s = .ok () s := rfl

/-! ### Regions -/

/-- The end of REGION_START (40_bitreader R136). -/
@[simp] theorem beginRegion_run (s : State) :
    beginRegion s = .ok () (s.setBr
      { s.br with BITCNT := 0, CRC := if s.par.crcClearAtRegionStart then 0 else s.br.CRC }) := rfl

@[simp] theorem setKey_run (k : Sample) (s : State) : setKey k s = .ok () (s.setBr { s.br with KEY := k }) := rfl

/-- The old key goes or stays by policy (40_bitreader R136). -/
@[simp] theorem dropKey_run (s : State) :
    dropKey s = .ok () (s.setBr { s.br with KEY := if s.par.keyClearBeforeRead then 0 else s.br.KEY }) := by
  rw [dropKey, op_bind_ok (op_get s)]
  cases s.par.keyClearBeforeRead <;> rfl

/-- A region without a key (40_bitreader R136). -/
theorem regionStartOp_noKey {s : State} {first : Bool} (h : s.keyComes first = false) :
    regionStartOp first s = beginRegion s := by
  rw [regionStartOp, op_bind_ok (op_get s), h]
  rfl

/-- A region with a key: the key is read, then the region begins (40_bitreader R136). -/
theorem regionStartOp_key {s : State} {first : Bool} (h : s.keyComes first = true) :
    regionStartOp first s = (readKey >>= fun _ => beginRegion) s := by
  rw [regionStartOp, op_bind_ok (op_get s), h]
  rfl

/-- PADSEG inside the declared size (40_bitreader R137). -/
theorem padsegOp_within {s : State} {d : Depth} (hd : s.br.DEPTH = some d) {size : Nat} (r : Region)
    (h : s.br.BITCNT ≤ size * d.bits) : padsegOp size r s = skipbitsOp (size * d.bits - s.br.BITCNT) s := by
  rw [padsegOp, op_bind_ok (needDepth_some hd), op_bind_ok (op_get s), if_pos h]

/-- PADSEG past the declared size warns or raises, by policy (40_bitreader R137). -/
theorem padsegOp_past {s : State} {d : Depth} (hd : s.br.DEPTH = some d) {size : Nat} (r : Region)
    (h : size * d.bits < s.br.BITCNT) :
    padsegOp size r s =
      if s.par.segOverrunFaults then .error (.raised (.segOverrun r)) s
      else .ok () (s.setEv (s.ev ++ [.segOverrun r (s.br.BITCNT - size * d.bits)])) := by
  rw [padsegOp, op_bind_ok (needDepth_some hd), op_bind_ok (op_get s), if_neg (by omega)]
  cases s.par.segOverrunFaults <;> rfl

/-- The end of CRCCHECK never aborts (40_bitreader R138, 60_exceptions R289). -/
theorem closeRegion_run (r : Region) (c : Sample) (s : State) :
    closeRegion r c s =
      .ok () ((s.setEv (if s.br.CRC = 0 then s.ev else s.ev ++ [.crc r s.br.CRC c])).setBr
        { s.br with CRC := if s.par.crcClearAfterCheck then 0 else s.br.CRC }) := by
  by_cases h : s.br.CRC = 0
  · have h' : (s.br.CRC != 0) = false := by simp [h]
    rw [closeRegion, op_bind_ok (op_get s), h', if_pos h]
    rfl
  · have h' : (s.br.CRC != 0) = true := bne_iff_ne.mpr h
    rw [closeRegion, op_bind_ok (op_get s), h', if_neg h]
    rfl

/-- `PAYLOAD_INIT` never aborts (40_bitreader R132). -/
theorem payloadInitOp_run (s : State) :
    payloadInitOp s = .ok () ((((s.setBr s.br.payloadInit).setFr { s.fr with EXTSZ := 0, NSUBM := 0, NSUBX := 0 }).setAc3m
      (clearValid s.ac3m)).setAc3x (clearValid s.ac3x)) := rfl

/-! ### Taking an error -/

@[simp] theorem latch_seq (s : State) (e : ErrVal) :
    (s.latch e).seq = ⟨.idle, false, false, kindCode (errKind e), errSub e, s.seq.ST.code⟩ := rfl

@[simp] theorem latch_lastErr (s : State) (e : ErrVal) : (s.latch e).lastErr = some (e, s.seq.ST) := rfl
@[simp] theorem latch_br (s : State) (e : ErrVal) : (s.latch e).br = s.br := rfl
@[simp] theorem latch_src (s : State) (e : ErrVal) : (s.latch e).src = s.src := rfl
@[simp] theorem latch_ev (s : State) (e : ErrVal) : (s.latch e).ev = s.ev := rfl
@[simp] theorem latch_fr (s : State) (e : ErrVal) : (s.latch e).fr = s.fr := rfl
@[simp] theorem latch_cfg (s : State) (e : ErrVal) : (s.latch e).cfg = s.cfg := rfl
@[simp] theorem latch_cont (s : State) (e : ErrVal) : (s.latch e).cont = s.cont := rfl
@[simp] theorem latch_par (s : State) (e : ErrVal) : (s.latch e).par = s.par := rfl
@[simp] theorem latch_desc (s : State) (e : ErrVal) : (s.latch e).desc = s.desc := rfl

end Sys2Proof.Machine
end

