-- ==== Sys2Proof/Laws/Bits.lean ====
section
/-! SUPPORT. Reading the stream is a function of bit offsets: GETBITS and SKIPBITS deliver the next bits of the logical
bitstream and leave the state `consume`, and consuming `a` bits and then `b` is consuming `a + b`. -/

theorem Sys2Proof.Depth.bits_ge (d : Sys2Proof.Depth) : 16 ≤ d.bits := by cases d <;> decide
theorem Sys2Proof.Depth.bits_le (d : Sys2Proof.Depth) : d.bits ≤ 24 := by cases d <;> decide

namespace Sys2Proof.Machine

/-! ### Bits as numbers -/

theorem bitsValue_lt (f : Nat → Bool) (n : Nat) : bitsValue f n < 2 ^ n := by
  induction n with
  | zero => simp [bitsValue]
  | succ n ih =>
    have := (f n).toNat_lt
    rw [bitsValue, pow_succ]
    omega

/-- Bit `j` from below of a bit string of `n` bits. -/
theorem bitsValue_testBit (f : Nat → Bool) (n j : Nat) : (bitsValue f n).testBit j = (decide (j < n) && f (n - 1 - j)) := by
  induction n generalizing j with
  | zero => simp [bitsValue]
  | succ n ih =>
    rw [bitsValue]
    cases j with
    | zero =>
      cases hf : f n <;> simp [Nat.testBit_zero, hf]
    | succ j =>
      have h1 : (2 * bitsValue f n + (f n).toNat).testBit (j + 1) = (bitsValue f n).testBit j := by
        rw [Nat.testBit_succ]
        congr 1
        have := (f n).toNat_lt
        omega
      rw [h1, ih]
      have h2 : n + 1 - 1 - (j + 1) = n - 1 - j := by omega
      rw [h2]
      simp

theorem bitsValue_congr {f g : Nat → Bool} {n : Nat} (h : ∀ i < n, f i = g i) : bitsValue f n = bitsValue g n := by
  induction n with
  | zero => rfl
  | succ n ih => rw [bitsValue, bitsValue, ih (fun i hi => h i (by omega)), h n (by omega)]

/-- A bit string read off a number `v` from bit `t - 1` downward. -/
theorem bitsValue_of_testBit (v t off w : Nat) (h : off + w ≤ t) :
    bitsValue (fun i => v.testBit (t - 1 - (off + i))) w = (v >>> (t - off - w)) % 2 ^ w := by
  apply Nat.eq_of_testBit_eq
  intro j
  rw [bitsValue_testBit, Nat.testBit_mod_two_pow, Nat.testBit_shiftRight]
  by_cases hj : j < w
  · have e : t - 1 - (off + (w - 1 - j)) = t - off - w + j := by omega
    simp only [hj, decide_true, Bool.true_and]
    rw [e]
  · simp [hj]

theorem State.field_lt (s : State) (d : Depth) (off w : Nat) : s.field d off w < 2 ^ w := bitsValue_lt _ _

theorem State.field_zero (s : State) (d : Depth) (off : Nat) : s.field d off 0 = 0 := rfl

/-- A field of one bit. -/
theorem State.field_one (s : State) (d : Depth) (off : Nat) : s.field d off 1 = (s.bitAt d off).toNat := by
  simp [State.field, bitsValue]

/-- A field in two parts. -/
theorem State.field_append (s : State) (d : Depth) (off v w : Nat) :
    s.field d off (v + w) = s.field d off v * 2 ^ w + s.field d (off + v) w := by
  induction w with
  | zero => simp [State.field_zero]
  | succ w ih =>
    have e1 : s.field d off (v + (w + 1)) = 2 * s.field d off (v + w) + (s.bitAt d (off + (v + w))).toNat := rfl
    have e2 : s.field d (off + v) (w + 1) = 2 * s.field d (off + v) w + (s.bitAt d (off + v + w)).toNat := rfl
    rw [e1, e2, ih, pow_succ, Nat.add_assoc off v w]
    ring

/-! ### The residual buffer with some words pulled -/

theorem sampleOf_lt (d : Depth) (key : Sample) (w : Word) : (sampleOf d key w).toNat < 2 ^ d.bits := by
  have h1 : ((w >>> (32 - d.bits)).setWidth 24).toNat < 2 ^ d.bits := by
    have hw := w.isLt
    rw [BitVec.toNat_setWidth, BitVec.toNat_ushiftRight, Nat.shiftRight_eq_div_pow]
    refine Nat.lt_of_le_of_lt (Nat.mod_le _ _) ?_
    rw [Nat.div_lt_iff_lt_mul (by positivity), ← pow_add]
    have := d.bits_le
    have e : d.bits + (32 - d.bits) = 32 := by omega
    rw [e]
    exact hw
  have h2 : (key &&& BitVec.ofNat 24 (2 ^ d.bits - 1)).toNat < 2 ^ d.bits := by
    rw [BitVec.toNat_and, BitVec.toNat_ofNat]
    refine Nat.lt_of_le_of_lt Nat.and_le_right ?_
    refine Nat.lt_of_le_of_lt (Nat.mod_le _ _) ?_
    have : 0 < 2 ^ d.bits := by positivity
    omega
  rw [sampleOf, BitVec.toNat_xor]
  exact Nat.xor_lt_two_pow h1 h2

theorem State.concat_lt (s : State) (d : Depth) (h : s.br.RES.toNat < 2 ^ s.br.RESCNT) (k : Nat) :
    s.concat d k < 2 ^ (s.br.RESCNT + k * d.bits) := by
  induction k with
  | zero => simpa [State.concat] using h
  | succ k ih =>
    have hs : (s.sampleAt d k).toNat < 2 ^ d.bits := sampleOf_lt d _ _
    have e : s.br.RESCNT + (k + 1) * d.bits = (s.br.RESCNT + k * d.bits) + d.bits := by ring
    rw [State.concat, e, pow_add]
    calc s.concat d k * 2 ^ d.bits + (s.sampleAt d k).toNat
        < s.concat d k * 2 ^ d.bits + 2 ^ d.bits := by omega
      _ = (s.concat d k + 1) * 2 ^ d.bits := by ring
      _ ≤ _ := Nat.mul_le_mul_right _ ih

/-- The bits of that number are the logical bitstream (10_state R28). -/
theorem State.concat_testBit (s : State) (d : Depth) (k i : Nat) (h : i < s.br.RESCNT + k * d.bits) :
    (s.concat d k).testBit (s.br.RESCNT + k * d.bits - 1 - i) = s.bitAt d i := by
  induction k with
  | zero =>
    have hi : i < s.br.RESCNT := by simpa using h
    rw [State.bitAt, if_pos hi]
    simp [State.concat, BitVec.getLsbD]
  | succ k ih =>
    have hd := d.bits_ge
    have hs : (s.sampleAt d k).toNat < 2 ^ d.bits := sampleOf_lt d _ _
    have e : s.br.RESCNT + (k + 1) * d.bits = (s.br.RESCNT + k * d.bits) + d.bits := by ring
    rw [e] at h ⊢
    rw [State.concat, Nat.mul_comm, Nat.testBit_two_pow_mul_add _ hs]
    by_cases hi : i < s.br.RESCNT + k * d.bits
    · rw [if_neg (by omega), ← ih hi]
      congr 1
      omega
    · rw [if_pos (by omega), State.bitAt, if_neg (by have := Nat.zero_le (k * d.bits); omega)]
      have hq : (i - s.br.RESCNT) / d.bits = k := by
        apply Nat.div_eq_of_lt_le
        · omega
        · rw [Nat.succ_mul]; omega
      have hr : (i - s.br.RESCNT) % d.bits = i - s.br.RESCNT - k * d.bits := by
        have := Nat.div_add_mod (i - s.br.RESCNT) d.bits
        rw [hq, Nat.mul_comm] at this
        omega
      rw [hq, hr, BitVec.getLsbD]
      congr 1
      omega

/-- A field of the logical bitstream, read off the residual bits and enough samples. -/
theorem State.field_eq (s : State) (d : Depth) (k off w : Nat) (h : off + w ≤ s.br.RESCNT + k * d.bits) :
    s.field d off w = (s.concat d k >>> (s.br.RESCNT + k * d.bits - off - w)) % 2 ^ w := by
  rw [← bitsValue_of_testBit _ _ _ _ h, State.field]
  apply bitsValue_congr
  intro i hi
  exact (s.concat_testBit d k (off + i) (by omega)).symm

theorem State.pulled_zero (s : State) (d : Depth) : s.pulled d 0 = s := by
  simp [State.pulled, State.concat, foldSamples]

/-- One more pull. -/
theorem pullwordOp_pulled {s : State} {d : Depth} (hs : s.Ready d) (k : Nat)
    (hroom : s.br.RESCNT + (k + 1) * d.bits ≤ 55)
    (hlen : s.src.POS + (k + 1) * s.sampleBytes ≤ s.src.MEM.len) :
    pullwordOp (s.pulled d k) = .ok () (s.pulled d (k + 1)) := by
  have e : s.br.RESCNT + (k + 1) * d.bits = (s.br.RESCNT + k * d.bits) + d.bits := by ring
  have eb : s.src.POS + (k + 1) * s.sampleBytes = s.src.POS + k * s.sampleBytes + s.sampleBytes := by ring
  have hb : (s.pulled d k).sampleBytes = s.sampleBytes := rfl
  have hd : (s.pulled d k).br.DEPTH = some d := hs.depth
  have hr : (s.pulled d k).br.RESCNT + d.bits ≤ 55 := by
    show s.br.RESCNT + k * d.bits + d.bits ≤ 55
    omega
  rw [pullwordOp_run hd hr, if_pos (show (s.pulled d k).src.POS + (s.pulled d k).sampleBytes ≤ (s.pulled d k).src.MEM.len from
    (show s.src.POS + k * s.sampleBytes + s.sampleBytes ≤ s.src.MEM.len by omega))]
  have hc := s.concat_lt d hs.res k
  have hle : 2 ^ (s.br.RESCNT + k * d.bits) * 2 ^ d.bits ≤ 2 ^ 55 := by
    rw [← pow_add]
    exact Nat.pow_le_pow_right (by omega) (by omega)
  have h55 : (2 : Nat) ^ 55 < 2 ^ 64 := by norm_num
  have hsm : (s.sampleAt d k).toNat < 2 ^ d.bits := sampleOf_lt d _ _
  have hmul : s.concat d k * 2 ^ d.bits < 2 ^ 64 := by
    have : s.concat d k * 2 ^ d.bits < 2 ^ (s.br.RESCNT + k * d.bits) * 2 ^ d.bits :=
      Nat.mul_lt_mul_of_pos_right hc (by positivity)
    omega
  have hres : (BitVec.ofNat 64 (s.concat d k) <<< d.bits) ||| (s.sampleAt d k).setWidth 64
      = BitVec.ofNat 64 (s.concat d (k + 1)) := by
    apply BitVec.eq_of_toNat_eq
    have hpos : 0 < 2 ^ d.bits := by positivity
    have hck : s.concat d k < 2 ^ 64 := lt_of_le_of_lt (Nat.le_mul_of_pos_right _ hpos) hmul
    have hs64 : (s.sampleAt d k).toNat < 2 ^ 64 :=
      lt_of_lt_of_le hsm (Nat.pow_le_pow_right (by omega) (by have := d.bits_le; omega))
    rw [BitVec.toNat_or, BitVec.toNat_shiftLeft, BitVec.toNat_ofNat, Nat.mod_eq_of_lt hck, BitVec.toNat_setWidth,
      Nat.mod_eq_of_lt hs64, Nat.shiftLeft_eq, Nat.mod_eq_of_lt hmul, BitVec.toNat_ofNat, State.concat]
    have hor : s.concat d k * 2 ^ d.bits ||| (s.sampleAt d k).toNat
        = s.concat d k * 2 ^ d.bits + (s.sampleAt d k).toNat := by
      rw [Nat.mul_comm, ← Nat.two_pow_add_eq_or_of_lt hsm]
    have hlt : s.concat d k * 2 ^ d.bits + (s.sampleAt d k).toNat < 2 ^ 64 := by
      have := s.concat_lt d hs.res (k + 1)
      rw [State.concat] at this
      refine lt_of_lt_of_le this (Nat.pow_le_pow_right (by omega) (by omega))
    rw [hor, Nat.mod_eq_of_lt hlt]
  have hbr : (s.pulled d k).br.pull d s.sampleBytes (wordOfBytes ((s.pulled d k).src.MEM.bytesFrom
      (s.pulled d k).src.POS s.sampleBytes)) = (s.pulled d (k + 1)).br := by
    show ({ s.br with
        CRC := crcFold d (foldSamples d s.br.CRC (s.sampleAt d) k) (s.sampleAt d k)
        RES := (BitVec.ofNat 64 (s.concat d k) <<< d.bits) ||| (s.sampleAt d k).setWidth 64
        RESCNT := s.br.RESCNT + k * d.bits + d.bits
        BYTECNT := s.br.BYTECNT + k * s.sampleBytes + s.sampleBytes } : BitReader) = _
    rw [hres, ← e, Nat.add_assoc s.br.BYTECNT, ← Nat.succ_mul]
    rfl
  have hsrc : ({ (s.pulled d k).src with POS := (s.pulled d k).src.POS + s.sampleBytes } : Source)
      = (s.pulled d (k + 1)).src := by
    show ({ s.src with POS := s.src.POS + k * s.sampleBytes + s.sampleBytes } : Source) = _
    rw [← eb]
    rfl
  rw [hb, hbr, hsrc]
  rfl

/-! ### Delivering bits -/

/-- Delivering `n` bits out of enough pulled words is consuming them, when no word was pulled in vain. -/
theorem takeBits_pulled {s : State} {d : Depth} (hs : s.Ready d) {n k : Nat} (hk : k = s.wordsFor d n)
    (hn : n ≤ s.br.RESCNT + k * d.bits) (hroom : s.br.RESCNT + k * d.bits ≤ 64) :
    takeBits n (s.pulled d k) = .ok (BitVec.ofNat n (s.field d 0 n)) (s.consume d n) := by
  have hc := s.concat_lt d hs.res k
  have h64 : s.concat d k < 2 ^ 64 := lt_of_lt_of_le hc (Nat.pow_le_pow_right (by omega) hroom)
  have hres : (s.pulled d k).br.RES.toNat = s.concat d k := by
    show (BitVec.ofNat 64 (s.concat d k)).toNat = _
    rw [BitVec.toNat_ofNat, Nat.mod_eq_of_lt h64]
  have hcnt : (s.pulled d k).br.RESCNT = s.br.RESCNT + k * d.bits := rfl
  rw [takeBits_run, hres, hcnt]
  have h1 : BitVec.ofNat n (s.concat d k >>> (s.br.RESCNT + k * d.bits - n)) = BitVec.ofNat n (s.field d 0 n) := by
    apply BitVec.eq_of_toNat_eq
    rw [BitVec.toNat_ofNat, BitVec.toNat_ofNat, s.field_eq d k 0 n (by omega)]
    simp
  have h2 : s.concat d k % 2 ^ (s.br.RESCNT + k * d.bits - n) = s.field d n (s.br.RESCNT + k * d.bits - n) := by
    rw [s.field_eq d k n _ (by omega)]
    have e : s.br.RESCNT + k * d.bits - n - (s.br.RESCNT + k * d.bits - n) = 0 := by omega
    rw [e]
    rfl
  rw [h1, h2]
  subst hk
  rfl

theorem State.wordsFor_zero {s : State} {d : Depth} {n : Nat} (h : n ≤ s.br.RESCNT) : s.wordsFor d n = 0 := by
  have hd := d.bits_ge
  rw [State.wordsFor]
  apply Nat.div_eq_of_lt
  omega

/-- Enough words, and not one more than enough. -/
theorem State.wordsFor_bounds {s : State} {d : Depth} {n : Nat} (h : s.br.RESCNT < n) :
    n ≤ s.br.RESCNT + s.wordsFor d n * d.bits ∧ s.br.RESCNT + s.wordsFor d n * d.bits < n + d.bits := by
  have hd := d.bits_ge
  have h1 := Nat.div_add_mod (n - s.br.RESCNT + (d.bits - 1)) d.bits
  have h2 := Nat.mod_lt (n - s.br.RESCNT + (d.bits - 1)) (show 0 < d.bits by omega)
  rw [State.wordsFor]
  rw [Nat.mul_comm] at h1
  omega

theorem State.consume_ready {s : State} {d : Depth} (hs : s.Ready d) (n : Nat) : (s.consume d n).Ready d where
  depth := hs.depth
  res := by
    show (BitVec.ofNat 64 (s.field d n _)).toNat < 2 ^ (s.br.RESCNT + s.wordsFor d n * d.bits - n)
    rw [BitVec.toNat_ofNat]
    exact lt_of_le_of_lt (Nat.mod_le _ _) (s.field_lt d n _)

theorem pullIfShort_enough {n : Nat} {s : State} (h : n ≤ s.br.RESCNT) : pullIfShort n s = .ok () s := by
  rw [pullIfShort, if_neg (by omega)]

theorem pullIfShort_short {n : Nat} {s : State} (h : s.br.RESCNT < n) : pullIfShort n s = pullwordOp s := by
  rw [pullIfShort, if_pos h]

/-- GETBITS: the next `n` bits of the logical bitstream (40_bitreader R134), if the words they need are there. -/
theorem getbitsOp_ok {s : State} {d : Depth} (hs : s.Ready d) {n : Nat} (hn : 1 ≤ n ∧ n ≤ 32)
    (hlen : (s.consume d n).src.POS ≤ s.src.MEM.len) :
    getbitsOp n s = .ok (BitVec.ofNat n (s.field d 0 n)) (s.consume d n) := by
  have hd := d.bits_ge
  have hd' := d.bits_le
  have hpos : s.src.POS + s.wordsFor d n * s.sampleBytes ≤ s.src.MEM.len := hlen
  rw [getbitsOp_depth hn hs.depth]
  by_cases h0 : n ≤ s.br.RESCNT
  · have hw := s.wordsFor_zero (d := d) h0
    rw [op_bind_ok (pullIfShort_enough h0), op_bind_ok (pullIfShort_enough h0)]
    have ht := takeBits_pulled hs (n := n) (k := 0) hw.symm (by omega)
    rw [State.pulled_zero] at ht
    by_cases h64 : s.br.RESCNT ≤ 64
    · exact ht (by omega)
    · have hres : s.br.RES.toNat < 2 ^ 64 := s.br.RES.isLt
      rw [takeBits_run]
      have hc : s.concat d 0 = s.br.RES.toNat := rfl
      have e1 := s.field_eq d 0 0 n (by omega)
      have e2 := s.field_eq d 0 n (s.br.RESCNT - n) (by omega)
      rw [hc] at e1 e2
      have h1 : BitVec.ofNat n (s.br.RES.toNat >>> (s.br.RESCNT - n)) = BitVec.ofNat n (s.field d 0 n) := by
        apply BitVec.eq_of_toNat_eq
        rw [BitVec.toNat_ofNat, BitVec.toNat_ofNat, e1]
        simp
      have h2 : s.br.RES.toNat % 2 ^ (s.br.RESCNT - n) = s.field d n (s.br.RESCNT - n) := by
        rw [e2]
        simp
      rw [h1, h2]
      simp only [State.consume, hw, State.setBr, foldSamples]
      simp
  · have hb := s.wordsFor_bounds (d := d) (n := n) (by omega)
    by_cases h1 : n ≤ s.br.RESCNT + d.bits
    · have hw : s.wordsFor d n = 1 := by
        have hlt : s.wordsFor d n * d.bits < 2 * d.bits := by omega
        have hgt : 0 < s.wordsFor d n * d.bits := by omega
        have := Nat.lt_of_mul_lt_mul_right hlt
        have := Nat.pos_of_mul_pos_right hgt
        omega
      rw [hw] at hb hpos
      have hp := pullwordOp_pulled hs 0 (by omega) (by omega)
      rw [State.pulled_zero] at hp
      rw [op_bind_ok ((pullIfShort_short (by omega)).trans hp)]
      have hcnt : (s.pulled d (0 + 1)).br.RESCNT = s.br.RESCNT + (0 + 1) * d.bits := rfl
      rw [op_bind_ok (pullIfShort_enough (by rw [hcnt]; omega))]
      exact takeBits_pulled hs hw.symm (by omega) (by omega)
    · have hw : s.wordsFor d n = 2 := by
        have hlt : s.wordsFor d n * d.bits < 3 * d.bits := by omega
        have hgt : 1 * d.bits < s.wordsFor d n * d.bits := by omega
        have := Nat.lt_of_mul_lt_mul_right hlt
        have := Nat.lt_of_mul_lt_mul_right hgt
        omega
      rw [hw] at hb hpos
      have hp := pullwordOp_pulled hs 0 (by omega) (by omega)
      rw [State.pulled_zero] at hp
      rw [op_bind_ok ((pullIfShort_short (by omega)).trans hp)]
      have hcnt : (s.pulled d (0 + 1)).br.RESCNT = s.br.RESCNT + (0 + 1) * d.bits := rfl
      have hp2 := pullwordOp_pulled hs 1 (by omega) (by omega)
      rw [op_bind_ok ((pullIfShort_short (by rw [hcnt]; omega)).trans hp2)]
      exact takeBits_pulled hs hw.symm (by omega) (by omega)

/-! ### Consuming in parts -/

theorem State.wordsFor_eq {s : State} {d : Depth} {n k : Nat} (h1 : n ≤ s.br.RESCNT + k * d.bits)
    (h2 : k = 0 ∨ s.br.RESCNT + k * d.bits < n + d.bits) : s.wordsFor d n = k := by
  have hd := d.bits_ge
  rcases Nat.lt_or_ge s.br.RESCNT n with h | h
  · have hb := s.wordsFor_bounds (d := d) h
    have h3 : k * d.bits < (s.wordsFor d n + 1) * d.bits := by
      rw [Nat.succ_mul]
      rcases h2 with h2 | h2
      · subst h2; omega
      · omega
    have h4 : s.wordsFor d n * d.bits < (k + 1) * d.bits := by
      rw [Nat.succ_mul]
      omega
    have := Nat.lt_of_mul_lt_mul_right h3
    have := Nat.lt_of_mul_lt_mul_right h4
    omega
  · rw [s.wordsFor_zero h]
    rcases h2 with h2 | h2
    · exact h2.symm
    · rcases Nat.eq_zero_or_pos k with hk | hk
      · exact hk.symm
      · have : 1 * d.bits ≤ k * d.bits := Nat.mul_le_mul_right _ hk
        omega

theorem State.wordsFor_enough (s : State) (d : Depth) (n : Nat) : n ≤ s.br.RESCNT + s.wordsFor d n * d.bits := by
  rcases Nat.lt_or_ge s.br.RESCNT n with h | h
  · exact (s.wordsFor_bounds (d := d) h).1
  · omega

theorem State.sampleAt_consume (s : State) (d : Depth) (a i : Nat) :
    (s.consume d a).sampleAt d i = s.sampleAt d (s.wordsFor d a + i) := by
  have e : s.src.POS + s.wordsFor d a * s.sampleBytes + i * s.sampleBytes
      = s.src.POS + (s.wordsFor d a + i) * s.sampleBytes := by ring
  show sampleOf d s.br.KEY (wordOfBytes (s.src.MEM.bytesFrom
    (s.src.POS + s.wordsFor d a * s.sampleBytes + i * s.sampleBytes) s.sampleBytes)) = _
  rw [e]
  rfl

/-- The bits after `a` have been consumed are the bits from offset `a` (10_state R28). -/
theorem State.bitAt_consume (s : State) (d : Depth) (a i : Nat) :
    (s.consume d a).bitAt d i = s.bitAt d (a + i) := by
  have hd := d.bits_ge
  have hd' := d.bits_le
  have hen := s.wordsFor_enough d a
  have hcnt : (s.consume d a).br.RESCNT = s.br.RESCNT + s.wordsFor d a * d.bits - a := rfl
  have hres : (s.consume d a).br.RES
      = BitVec.ofNat 64 (s.field d a (s.br.RESCNT + s.wordsFor d a * d.bits - a)) := rfl
  rw [State.bitAt, hcnt]
  by_cases hi : i < s.br.RESCNT + s.wordsFor d a * d.bits - a
  · rw [if_pos hi, hres, BitVec.getLsbD_ofNat, State.field, bitsValue_testBit]
    have e : s.br.RESCNT + s.wordsFor d a * d.bits - a - 1 - (s.br.RESCNT + s.wordsFor d a * d.bits - a - 1 - i) = i := by
      omega
    rw [e]
    have e2 : decide (s.br.RESCNT + s.wordsFor d a * d.bits - a - 1 - i
        < s.br.RESCNT + s.wordsFor d a * d.bits - a) = true := by
      rw [decide_eq_true_eq]
      omega
    rw [e2, Bool.true_and]
    by_cases h64 : s.br.RESCNT + s.wordsFor d a * d.bits - a - 1 - i < 64
    · simp [h64]
    · have hR : a ≤ s.br.RESCNT := by
        by_contra hc
        have := (s.wordsFor_bounds (d := d) (n := a) (by omega)).2
        omega
      have hw := s.wordsFor_zero (d := d) hR
      rw [hw] at hi h64
      have hb : s.bitAt d (a + i) = false := by
        rw [State.bitAt, if_pos (by omega)]
        apply BitVec.getLsbD_of_ge
        omega
      rw [hb]
      simp
  · rw [if_neg hi, s.sampleAt_consume]
    rw [State.bitAt, if_neg (by omega)]
    have e : a + i - s.br.RESCNT
        = (i - (s.br.RESCNT + s.wordsFor d a * d.bits - a)) + s.wordsFor d a * d.bits := by omega
    rw [e, Nat.add_mul_div_right _ _ (by omega), Nat.add_mul_mod_self_right, Nat.add_comm (s.wordsFor d a)]

theorem State.field_consume (s : State) (d : Depth) (a off w : Nat) :
    (s.consume d a).field d off w = s.field d (a + off) w := by
  rw [State.field, State.field]
  apply bitsValue_congr
  intro i _
  rw [s.bitAt_consume, Nat.add_assoc]

theorem State.wordsFor_consume (s : State) (d : Depth) (a b : Nat) :
    s.wordsFor d (a + b) = s.wordsFor d a + (s.consume d a).wordsFor d b := by
  have hen := s.wordsFor_enough d a
  have hcnt : (s.consume d a).br.RESCNT = s.br.RESCNT + s.wordsFor d a * d.bits - a := rfl
  apply s.wordsFor_eq
  · have := (s.consume d a).wordsFor_enough d b
    rw [hcnt] at this
    rw [Nat.add_mul]
    omega
  · rcases Nat.lt_or_ge (s.consume d a).br.RESCNT b with h | h
    · have hb := ((s.consume d a).wordsFor_bounds (d := d) h).2
      rw [hcnt] at hb
      right
      rw [Nat.add_mul]
      omega
    · rw [(s.consume d a).wordsFor_zero h]
      rcases Nat.lt_or_ge s.br.RESCNT a with h' | h'
      · have hb := (s.wordsFor_bounds (d := d) h').2
        right
        rw [Nat.add_zero]
        omega
      · left
        rw [s.wordsFor_zero h']

theorem foldSamples_add (d : Depth) (crc : BitVec 16) (f : Nat → Sample) (a b : Nat) :
    foldSamples d crc f (a + b) = foldSamples d (foldSamples d crc f a) (fun i => f (a + i)) b := by
  induction b with
  | zero => rfl
  | succ b ih =>
    rw [← Nat.add_assoc, foldSamples, ih]
    rfl

/-- Consuming `a` bits and then `b` is consuming `a + b` (40_bitreader R134, R135). -/
theorem State.consume_consume (s : State) (d : Depth) (a b : Nat) :
    (s.consume d a).consume d b = s.consume d (a + b) := by
  have hen := s.wordsFor_enough d a
  have hw := s.wordsFor_consume d a b
  have hs : (fun i => s.sampleAt d (s.wordsFor d a + i)) = (s.consume d a).sampleAt d := by
    funext i
    rw [s.sampleAt_consume]
  have hcrc : foldSamples d s.br.CRC (s.sampleAt d) (s.wordsFor d (a + b))
      = foldSamples d (s.consume d a).br.CRC ((s.consume d a).sampleAt d) ((s.consume d a).wordsFor d b) := by
    rw [hw, foldSamples_add, hs]
    rfl
  have hcnt : s.br.RESCNT + s.wordsFor d (a + b) * d.bits - (a + b)
      = (s.consume d a).br.RESCNT + (s.consume d a).wordsFor d b * d.bits - b := by
    show _ = s.br.RESCNT + s.wordsFor d a * d.bits - a + (s.consume d a).wordsFor d b * d.bits - b
    rw [hw, Nat.add_mul]
    omega
  have hbyte : s.wordsFor d (a + b) * s.sampleBytes
      = s.wordsFor d a * s.sampleBytes + (s.consume d a).wordsFor d b * s.sampleBytes := by rw [hw, Nat.add_mul]
  have hfield : (s.consume d a).field d b ((s.consume d a).br.RESCNT + (s.consume d a).wordsFor d b * d.bits - b)
      = s.field d (a + b) (s.br.RESCNT + s.wordsFor d (a + b) * d.bits - (a + b)) := by
    rw [s.field_consume, hcnt]
  have hbr : ((s.consume d a).consume d b).br = (s.consume d (a + b)).br := by
    show ({ (s.consume d a).br with
        RES := BitVec.ofNat 64
          ((s.consume d a).field d b ((s.consume d a).br.RESCNT + (s.consume d a).wordsFor d b * d.bits - b))
        RESCNT := (s.consume d a).br.RESCNT + (s.consume d a).wordsFor d b * d.bits - b
        CRC := foldSamples d (s.consume d a).br.CRC ((s.consume d a).sampleAt d) ((s.consume d a).wordsFor d b)
        BITCNT := s.br.BITCNT + a + b
        BYTECNT := s.br.BYTECNT + s.wordsFor d a * s.sampleBytes + (s.consume d a).wordsFor d b * s.sampleBytes }
      : BitReader) = _
    rw [hfield, ← hcrc, ← hcnt, Nat.add_assoc, Nat.add_assoc, ← hbyte]
    rfl
  have hsrc : ((s.consume d a).consume d b).src = (s.consume d (a + b)).src := by
    show ({ s.src with
        POS := s.src.POS + s.wordsFor d a * s.sampleBytes + (s.consume d a).wordsFor d b * s.sampleBytes } : Source) = _
    rw [Nat.add_assoc, ← hbyte]
    rfl
  show ({ s with br := ((s.consume d a).consume d b).br, src := ((s.consume d a).consume d b).src } : State) = _
  rw [hbr, hsrc]
  rfl

/-- Consuming nothing changes nothing. -/
theorem State.consume_zero {s : State} {d : Depth} (hs : s.Ready d) : s.consume d 0 = s := by
  have hw := s.wordsFor_zero (d := d) (Nat.zero_le s.br.RESCNT)
  have hf : s.field d 0 (s.br.RESCNT + 0 * d.bits - 0) = s.br.RES.toNat := by
    have := s.field_eq d 0 0 s.br.RESCNT (by omega)
    simp only [Nat.zero_mul, Nat.add_zero, Nat.sub_zero, Nat.sub_self] at this ⊢
    rw [this]
    exact Nat.mod_eq_of_lt hs.res
  rw [State.consume, hw, hf]
  simp [foldSamples]

/-- The position never moves back. -/
theorem State.consume_pos_le (s : State) (d : Depth) (a b : Nat) :
    (s.consume d a).src.POS ≤ (s.consume d (a + b)).src.POS := by
  rw [← s.consume_consume]
  show _ ≤ (s.consume d a).src.POS + _
  omega

/-- SKIPBITS: the chunks do not show (40_bitreader R135). -/
theorem skipbitsOp_ok {s : State} {d : Depth} (hs : s.Ready d) {k : Nat}
    (hlen : (s.consume d k).src.POS ≤ s.src.MEM.len) : skipbitsOp k s = .ok () (s.consume d k) := by
  have hrep : ∀ m : Nat, ∀ t : State, t.Ready d → (t.consume d (32 * m)).src.POS ≤ t.src.MEM.len →
      repeatOp (dropBits 32) m t = .ok () (t.consume d (32 * m)) := by
    intro m
    induction m with
    | zero =>
      intro t ht _
      rw [repeatOp_zero, Nat.mul_zero, State.consume_zero ht]
    | succ m ih =>
      intro t ht hl
      have e : 32 * (m + 1) = 32 + 32 * m := by ring
      rw [e] at hl ⊢
      have h1 := getbitsOp_ok ht (n := 32) (by omega) (le_trans (t.consume_pos_le d 32 (32 * m)) hl)
      rw [repeatOp_succ, dropBits_ok h1]
      rw [← t.consume_consume] at hl ⊢
      exact ih _ (State.consume_ready ht 32) hl
  have e : k = 32 * (k / 32) + k % 32 := (Nat.div_add_mod k 32).symm
  have hl2 := hlen
  rw [e] at hl2
  have h1 := hrep (k / 32) s hs (le_trans (s.consume_pos_le d _ (k % 32)) hl2)
  rw [skipbitsOp, op_bind_ok h1]
  by_cases h0 : k % 32 = 0
  · have e0 : 32 * (k / 32) = k := by omega
    rw [h0, e0]
    rfl
  · have hb : (k % 32 != 0) = true := bne_iff_ne.mpr h0
    rw [hb, whenOp_true]
    rw [← s.consume_consume] at hl2
    have h2 := getbitsOp_ok (State.consume_ready hs (32 * (k / 32))) (n := k % 32) (by omega) hl2
    rw [dropBits_ok h2, s.consume_consume, ← e]

/-- A field of the depth's width, as a sample (40_bitreader R134). -/
theorem getSample_ok {s : State} {d : Depth} (hs : s.Ready d)
    (hlen : (s.consume d d.bits).src.POS ≤ s.src.MEM.len) :
    getSample s = .ok (BitVec.ofNat 24 (s.field d 0 d.bits)) (s.consume d d.bits) := by
  have hd := d.bits_ge
  have hd' := d.bits_le
  have h := getbitsOp_ok hs (n := d.bits) (by omega) hlen
  rw [getSample, op_bind_ok (needDepth_some hs.depth), op_bind_ok h, op_pure]
  congr 1
  apply BitVec.eq_of_toNat_eq
  have hlt := s.field_lt d 0 d.bits
  have h24 : 2 ^ d.bits ≤ 2 ^ 24 := Nat.pow_le_pow_right (by omega) hd'
  rw [BitVec.toNat_setWidth, BitVec.toNat_ofNat, BitVec.toNat_ofNat, Nat.mod_eq_of_lt hlt]

/-- Reading a layout (42_frame_header R195, 43_subsegments R224): each field is stored by an update that leaves the bit
reader and the stream alone; the whole takes the layout's bits and stores its fields in order. -/
theorem readLayout_ok {φ : Type} {store : φ × Nat → Nat → Op Unit}
    {g : φ × Nat → Nat → State → State} {d : Depth}
    (hstore : ∀ e v s, store e v s = .ok () (g e v s))
    (hcomm : ∀ e v s n, g e v (s.consume d n) = (g e v s).consume d n)
    (hfield : ∀ e v s o w, (g e v s).field d o w = s.field d o w)
    (hready : ∀ e v s, s.Ready d → (g e v s).Ready d)
    (hsrc : ∀ e v s, (g e v s).src = s.src) :
    ∀ (l : Layout φ) (s : State), s.Ready d → (∀ x ∈ l, 1 ≤ x.2 ∧ x.2 ≤ 32) →
      (s.consume d l.bits).src.POS ≤ s.src.MEM.len →
      readLayout store l s =
        .ok () (((s.layoutFields d 0 l).foldl (fun t x => g x.1 x.2 t) s).consume d l.bits) := by
  have hfields : ∀ (l : Layout φ) (s : State) (e : φ × Nat) (v a o : Nat),
      (g e v (s.consume d a)).layoutFields d o l = s.layoutFields d (a + o) l := by
    intro l
    induction l with
    | nil => intros; rfl
    | cons x l ih =>
      intro s e v a o
      rw [State.layoutFields, State.layoutFields, hfield, s.field_consume, ih, Nat.add_assoc]
  have hfold : ∀ (l : List ((φ × Nat) × Nat)) (s : State) (n : Nat),
      l.foldl (fun t x => g x.1 x.2 t) (s.consume d n) = (l.foldl (fun t x => g x.1 x.2 t) s).consume d n := by
    intro l
    induction l with
    | nil => intros; rfl
    | cons x l ih =>
      intro s n
      rw [List.foldl_cons, List.foldl_cons, hcomm, ih]
  intro l
  induction l with
  | nil =>
    intro s hs _ _
    show EStateM.Result.ok () s = EStateM.Result.ok () (s.consume d 0)
    rw [State.consume_zero hs]
  | cons x l ih =>
    intro s hs hw hpos
    obtain ⟨y, w⟩ := x
    have hbits : Layout.bits ((y, w) :: l) = w + Layout.bits l := rfl
    have hw1 : 1 ≤ w ∧ w ≤ 32 := hw (y, w) List.mem_cons_self
    rw [hbits] at hpos ⊢
    have h1 := getbitsOp_ok hs hw1 (le_trans (s.consume_pos_le d w (Layout.bits l)) hpos)
    have hv : (BitVec.ofNat w (s.field d 0 w)).toNat = s.field d 0 w := by
      rw [BitVec.toNat_ofNat, Nat.mod_eq_of_lt (s.field_lt d 0 w)]
    rw [readLayout, op_bind_ok h1, hv, op_bind_ok (hstore _ _ _)]
    have hs' : (g (y, w) (s.field d 0 w) (s.consume d w)).Ready d := hready _ _ _ (State.consume_ready hs w)
    have hp : ((g (y, w) (s.field d 0 w) (s.consume d w)).consume d (Layout.bits l)).src.POS
        ≤ (g (y, w) (s.field d 0 w) (s.consume d w)).src.MEM.len := by
      rw [← hcomm, hsrc, hsrc, s.consume_consume]
      exact hpos
    rw [ih _ hs' (fun z hz => hw z (List.mem_cons_of_mem _ hz)) hp, hfields, hcomm, hfold, State.consume_consume,
      State.layoutFields, List.foldl_cons, Nat.add_zero, Nat.zero_add]

/-- REGION_START (40_bitreader R136). -/
theorem regionStartOp_ok {s : State} {d : Depth} (hs : s.Ready d) (first : Bool)
    (hlen : (s.afterRegionStart d first).src.POS ≤ s.src.MEM.len) :
    regionStartOp first s = .ok () (s.afterRegionStart d first) := by
  have hiff : s.keyComes first = true ↔ s.br.KEYP = true ∧ (first = true ∨ s.par.keyPerRegion = true) := by
    simp [State.keyComes]
  by_cases hk : s.br.KEYP = true ∧ (first = true ∨ s.par.keyPerRegion = true)
  · rw [State.afterRegionStart, if_pos hk] at hlen ⊢
    have h0 : (s.setBr { s.br with KEY := if s.par.keyClearBeforeRead then 0 else s.br.KEY }).Ready d :=
      ⟨hs.depth, hs.res⟩
    have h1 := getSample_ok h0 hlen
    have h2 : readKey s = .ok () (s.afterKey d) := by
      rw [readKey, op_bind_ok (dropKey_run s), op_bind_ok h1]
      rfl
    rw [regionStartOp_key (hiff.mpr hk), op_bind_ok h2]
    rfl
  · have hf : s.keyComes first = false := by
      rw [← Bool.not_eq_true, hiff]
      exact hk
    rw [State.afterRegionStart, if_neg hk, regionStartOp_noKey hf]
    rfl

theorem State.afterRegionStart_ready {s : State} {d : Depth} (hs : s.Ready d) (first : Bool) :
    (s.afterRegionStart d first).Ready d := by
  have h0 : (s.setBr { s.br with KEY := if s.par.keyClearBeforeRead then 0 else s.br.KEY }).Ready d :=
    ⟨hs.depth, hs.res⟩
  have h1 := State.consume_ready h0 d.bits
  rw [State.afterRegionStart]
  split_ifs
  · exact ⟨h1.depth, h1.res⟩
  · exact ⟨hs.depth, hs.res⟩

/-- PADSEG that does not raise (40_bitreader R137). -/
theorem padsegOp_ok {s : State} {d : Depth} (hs : s.Ready d) (size : Nat) (r : Region) (hpad : s.PadOk d size)
    (hlen : (s.afterPad d size r).src.POS ≤ s.src.MEM.len) :
    padsegOp size r s = .ok () (s.afterPad d size r) := by
  by_cases h : s.br.BITCNT ≤ size * d.bits
  · rw [State.afterPad, if_pos h] at hlen ⊢
    rw [padsegOp_within hs.depth r h, skipbitsOp_ok hs hlen]
  · rw [State.afterPad, if_neg h, padsegOp_past hs.depth r (by omega), hpad.resolve_left h]
    rfl

theorem State.afterPad_ready {s : State} {d : Depth} (hs : s.Ready d) (size : Nat) (r : Region) :
    (s.afterPad d size r).Ready d := by
  rw [State.afterPad]
  split_ifs
  · exact State.consume_ready hs _
  · exact ⟨hs.depth, hs.res⟩

/-- CRCCHECK (40_bitreader R138). -/
theorem crccheckOp_ok {s : State} {d : Depth} (hs : s.Ready d) (r : Region)
    (hlen : (s.consume d d.bits).src.POS ≤ s.src.MEM.len) :
    crccheckOp r s = .ok () (s.afterCrc d r) := by
  rw [crccheckOp, op_bind_ok (getSample_ok hs hlen), closeRegion_run]
  rfl

theorem State.afterCrc_ready {s : State} {d : Depth} (hs : s.Ready d) (r : Region) : (s.afterCrc d r).Ready d :=
  ⟨hs.depth, (State.consume_ready hs d.bits).res⟩

end Sys2Proof.Machine
end

