-- ==== Sys2Proof/Laws/Header.lean ====
section
/-! SUPPORT. What the shared operations of the burst layer, the frame header and the subsegments do, said once. -/

namespace Sys2Proof.Machine

/-! ### Burst layer -/

/-- A header word, or the error of 41_burst R167, R168. -/
theorem headerWord_run (i : BitVec 2) (s : State) :
    headerWord i s =
      if s.src.POS + s.sampleBytes ≤ s.src.MEM.len then
        .ok (s.wordAt 0) (s.setSrc { s.src with POS := s.src.POS + s.sampleBytes })
      else .error (.raised (.atHeader i)) s := by
  rw [headerWord, op_bind, srcReadWordOp_run]
  by_cases h : s.src.POS + s.sampleBytes ≤ s.src.MEM.len
  · rw [if_pos h, if_pos h]
    have e : s.wordAt 0 = wordOfBytes (s.src.MEM.bytesFrom s.src.POS s.sampleBytes) := by
      rw [State.wordAt, Nat.zero_mul, Nat.add_zero]
    rw [e]
    rfl
  · rw [if_neg h, if_neg h]
    rfl

/-- Burst-info word 1 is stored, then warned about (41_burst R168). -/
theorem burstWord1_run (a : BitVec 3) (b : BitVec 5) (c : BitVec 1) (m : BitVec 2) (t : BitVec 5) (s : State) :
    burstWord1 a b c m t s =
      .ok () ((s.setBi { s.bi with BI_STREAMNO := a, BI_DTD := b, BI_ERRF := c, BI_MODE := m, BI_DTYPE := t }).setEv
        (s.ev ++ burstWarnings b m t)) := by
  have hb : (if (b != 0) = true then [Event.biDtd b] else []) = if b = 0 then [] else [.biDtd b] := by
    by_cases h : b = 0 <;> simp [h]
  have hm : (if (m != 1) = true then [Event.biMode m] else []) = if m = 1 then [] else [.biMode m] := by
    by_cases h : m = 1 <;> simp [h]
  have ht : (if (t != 28) = true then [Event.biDtype t] else []) = if t = 28 then [] else [.biDtype t] := by
    by_cases h : t = 28 <;> simp [h]
  rw [burstWord1, op_bind_ok (update_run _ s), op_bind_ok (whenOp_emit _ _ _), op_bind_ok (whenOp_emit _ _ _), whenOp_emit,
    hb, hm, ht]
  simp only [State.setEv_ev, State.setEv_setEv, State.setBi_ev, burstWarnings, List.append_assoc]

@[simp] theorem burstWord2_run (len : BitVec 20) (s : State) :
    burstWord2 len s = .ok () (s.setBi { s.bi with BI_BITLEN := len }) := rfl

/-- Preamble word 2 after word 1 selected `d` (41_burst R167). -/
theorem confirmDepth_run {s : State} {d : Depth} (h : s.pd = some d) (w : Word) :
    confirmDepth w s =
      if w = d.preamble2 then .ok () (s.setBr { s.br with DEPTH := some d })
      else .error (.raised (.badPreamble2 w)) s := by
  rw [confirmDepth, op_bind_ok (op_get s), h]
  show (if w = d.preamble2 then updBr fun b => { b with DEPTH := some d } else raiseErr (.badPreamble2 w)) s = _
  split_ifs <;> rfl

/-- The three words that begin a burst (30_encoding R93). -/
theorem preamble1Depth_preamble1 (d : Depth) : preamble1Depth d.preamble1 = some d := by cases d <;> decide

/-- PREAMBLE on the two words of a depth (41_burst R167). -/
theorem preambleOp_ok {s : State} {d : Depth} (h1 : s.wordAt 0 = d.preamble1) (h2 : s.wordAt 1 = d.preamble2)
    (hlen : (s.afterPreamble d).src.POS ≤ s.src.MEM.len) : preambleOp s = .ok () (s.afterPreamble d) := by
  have hpos : s.src.POS + 2 * s.sampleBytes ≤ s.src.MEM.len := hlen
  have hw1 : headerWord 0 s = .ok d.preamble1 (s.setSrc { s.src with POS := s.src.POS + s.sampleBytes }) := by
    rw [headerWord_run, if_pos (by omega), h1]
  rw [preambleOp, op_bind_ok hw1]
  simp only [preamble1Depth_preamble1]
  have hsel : selectDepth d (s.setSrc { s.src with POS := s.src.POS + s.sampleBytes })
      = .ok () ((s.setSrc { s.src with POS := s.src.POS + s.sampleBytes }).setPd (some d)) := rfl
  rw [op_bind_ok hsel]
  have hw2 : headerWord 1 ((s.setSrc { s.src with POS := s.src.POS + s.sampleBytes }).setPd (some d))
      = .ok d.preamble2 ((s.setSrc { s.src with POS := s.src.POS + 2 * s.sampleBytes }).setPd (some d)) := by
    have hp : ((s.setSrc { s.src with POS := s.src.POS + s.sampleBytes }).setPd (some d)).src.POS
        + ((s.setSrc { s.src with POS := s.src.POS + s.sampleBytes }).setPd (some d)).sampleBytes
        = s.src.POS + 2 * s.sampleBytes := by
      show s.src.POS + s.sampleBytes + s.sampleBytes = _
      omega
    have hw : ((s.setSrc { s.src with POS := s.src.POS + s.sampleBytes }).setPd (some d)).wordAt 0 = s.wordAt 1 := by
      show wordOfBytes (s.src.MEM.bytesFrom (s.src.POS + s.sampleBytes + 0 * s.sampleBytes) s.sampleBytes) = _
      rw [Nat.zero_mul, Nat.add_zero, State.wordAt, Nat.one_mul]
    rw [headerWord_run, hp, if_pos (by exact hpos), hw, h2]
    rfl
  rw [op_bind_ok hw2, confirmDepth_run rfl, if_pos rfl]
  rfl

/-! ### Frame header -/

/-- DESCCHAR never aborts (42_frame_header R200). -/
theorem desccharOp_run (p : Fin 8) (ch : BitVec 8) (s : State) : desccharOp p ch s = .ok () (s.afterChar p ch) := by
  have htake : (s.desc[p]).take s.par.descMax ch = (s.desc[p]).after s.par.descMax ch := by
    rw [DescText.take, DescText.after]
    by_cases h2 : ch = 0x02#8
    · rw [if_pos h2, if_pos (show ch = 2 from h2)]
    · rw [if_neg h2, if_neg (show ¬ch = 2 from h2)]
      by_cases h3 : ch = 0x03#8
      · subst h3
        cases (s.desc[p]).RUNOPEN <;> simp [isPrintable]
      · rw [if_neg h3, if_neg (show ¬(ch = 3 ∧ (s.desc[p]).RUNOPEN = true) from fun hc => h3 hc.1)]
        by_cases h0 : ch = 0x00#8
        · subst h0
          simp [isPrintable]
        · rw [if_neg h0]
          cases hro : (s.desc[p]).RUNOPEN <;> simp [isPrintable, and_assoc]
  rw [desccharOp, op_bind_ok (op_get s), op_bind_ok (update_run _ s), whenOp_emit, htake]
  have hpub : (if (ch == 0x03#8 && (s.desc[p]).RUNOPEN) = true then [Event.desc p (s.desc[p]).RUN.length] else [])
      = (s.desc[p]).published p ch := by
    rw [DescText.published]
    simp only [Bool.and_eq_true, beq_iff_eq]
    rfl
  rw [hpub]
  rfl

/-- CONTINUITY_UPDATE never aborts (42_frame_header R197). -/
theorem continuityUpdateOp_run (idx : Nat) (df : Bool) (s : State) :
    continuityUpdateOp idx df s = .ok () (s.afterContinuity idx df) := by
  have h1 : noteDiscontinuity idx s = .ok () (s.setEv (s.ev ++
      (if s.cont.LASTIDX_V = true ∧ idx ≠ s.cont.LASTIDX + s.par.tcStep
        then [.tcDiscont (s.cont.LASTIDX + s.par.tcStep) idx] else []))) := by
    rw [noteDiscontinuity, op_bind_ok (op_get s)]
    by_cases hv : s.cont.LASTIDX_V = true
    · by_cases he : idx = s.cont.LASTIDX + s.par.tcStep
      · rw [if_pos hv, if_pos he, if_neg (fun hc => hc.2 he), List.append_nil, State.setEv_same]
        rfl
      · rw [if_pos hv, if_neg he, if_pos ⟨hv, he⟩]
        rfl
    · rw [if_neg hv, if_neg (fun hc => hv hc.1), List.append_nil, State.setEv_same]
      rfl
  have h2 : ∀ t : State, noteDropChange df t = .ok () (t.setEv (t.ev ++
      (if t.cont.LASTDROP_V = true ∧ t.cont.LASTDROP ≠ df then [if df then Event.dropOn else Event.dropOff] else []))) := by
    intro t
    rw [noteDropChange, op_bind_ok (op_get t), whenOp_emit]
    simp only [Bool.and_eq_true, bne_iff_ne]
  rw [continuityUpdateOp, op_bind_ok h1, op_bind_ok (h2 _)]
  rfl

/-- CONTINUITY_INVALIDATE never aborts (42_frame_header R197). -/
theorem continuityInvalidateOp_run (s : State) :
    continuityInvalidateOp s =
      .ok () ((s.setCont { s.cont with LASTIDX_V := false, LASTDROP_V := false }).setEv (s.ev ++ [.tcInvalid])) := rfl

/-- The rest of TIMECODE never aborts (42_frame_header R195). -/
theorem timecodeDone_run (fields : List ((TcField × Nat) × Nat)) (s : State) :
    timecodeDone (s.setTc (s.tc.storeAll fields)) = .ok () (s.afterTimecode fields) := by
  rw [timecodeDone, op_bind_ok (op_get _)]
  have hs : (s.setTc (s.tc.storeAll fields)).tc.isSentinel = true
      ↔ (s.tc.storeAll fields).TC_HT = 3 ∧ (s.tc.storeAll fields).TC_HU = 15 := by
    rw [State.setTc_tc, TcRegs.isSentinel, Bool.and_eq_true, beq_iff_eq, beq_iff_eq]
    rfl
  by_cases h : (s.tc.storeAll fields).TC_HT = 3 ∧ (s.tc.storeAll fields).TC_HU = 15
  · rw [if_pos (hs.mpr h), State.afterTimecode, if_pos h]
    rfl
  · rw [if_neg (fun hc => h (hs.mp hc)), State.afterTimecode, if_neg h, op_bind_ok (updTc_run _ _),
      continuityUpdateOp_run]
    rfl

/-- The fields of a timecode block are stored and their bits taken (42_frame_header R195). -/
theorem readTimecode_ok {s : State} {d : Depth} (hs : s.Ready d) (l : Layout TcField)
    (hw : ∀ x ∈ l, 1 ≤ x.2 ∧ x.2 ≤ 32) (hlen : (s.consume d l.bits).src.POS ≤ s.src.MEM.len) :
    readLayout (fun e v => updTc fun t => t.store e v) l s =
      .ok () ((s.consume d l.bits).setTc (s.tc.storeAll (s.layoutFields d 0 l))) := by
  have h := readLayout_ok (d := d) (store := fun e v => updTc fun t => t.store e v)
    (g := fun e v s => s.setTc (s.tc.store e v)) (fun _ _ _ => rfl) (fun _ _ _ _ => rfl) (fun _ _ _ _ _ => rfl)
    (fun _ _ _ hr => ⟨hr.depth, hr.res⟩) (fun _ _ _ => rfl) l s hs hw hlen
  have hf : ∀ (xs : List ((TcField × Nat) × Nat)) (t : State),
      xs.foldl (fun t x => t.setTc (t.tc.store x.1 x.2)) t = t.setTc (t.tc.storeAll xs) := by
    intro xs
    induction xs with
    | nil => intro t; rfl
    | cons x xs ih => intro t; rw [List.foldl_cons, ih]; rfl
  rw [h, hf]
  rfl

/-- `PCFG` of a code of the table (45_progconfig R270). -/
theorem pcfgOp_ok {code : BitVec 6} (h : code ≤ 23#6) (s : State) : pcfgOp code s = .ok (s.pcfgRow code) s := by
  rw [pcfgOp, op_bind_ok (op_get s), if_pos h]
  rfl

/-- `PCFG` of a code that is reserved or illegal (45_progconfig R270). -/
theorem pcfgOp_bad {code : BitVec 6} (h : ¬code ≤ 23#6) (s : State) :
    pcfgOp code s = .error (.raised (if code ≤ 62#6 then .pcfgReserved code else .pcfgIllegal code)) s := by
  rw [pcfgOp, op_bind_ok (op_get s), if_neg h]
  split_ifs <;> rfl

/-- A legal program-configuration code (45_progconfig R270, 42_frame_header R192). -/
theorem pcfgField_ok {code : BitVec 6} (h : code ≤ 23#6) (s : State) :
    pcfgField code s = .ok () ((s.setFr { s.fr with PCFGC := code }).configured code) := by
  rw [pcfgField, op_bind_ok (updFr_run _ s), op_bind_ok (pcfgOp_ok h _)]
  rfl

/-- A program-configuration code that is reserved or illegal: it is stored, then refused by an error
(45_progconfig R270, 42_frame_header R192). -/
theorem pcfgField_bad {code : BitVec 6} (h : ¬code ≤ 23#6) (s : State) :
    pcfgField code s = .error (.raised (if code ≤ 62#6 then .pcfgReserved code else .pcfgIllegal code))
      (s.setFr { s.fr with PCFGC := code }) := by
  rw [pcfgField, op_bind_ok (updFr_run _ s), op_bind_error (pcfgOp_bad h _)]

/-- The frame-rate code (42_frame_header R192): it is stored; a reserved one is refused by an error. -/
theorem frcField_run (frc : BitVec 4) (s : State) :
    frcField frc s =
      if frcIsReserved frc then .error (.raised (.frcReserved frc)) (s.setFr { s.fr with FRC := frc })
      else .ok () (s.setFr { s.fr with FRC := frc, LFR := lfrOf frc }) := by
  rw [frcField, op_bind_ok (updFr_run _ s)]
  split_ifs <;> rfl

/-! ### Subsegments -/

/-- The field at a place of a record. -/
def fieldAt (n : Nat) : Ac3Field :=
  ([.datarate, .bsmod, .acmod, .cmixlev, .surmixlev, .dsurmod, .lfeon, .dialnorm, .langcode, .langcod, .audprodie,
    .mixlevel, .roomtyp, .copyrightb, .origbs, .dmixmod, .ltrtcmixlev, .ltrtsurmixlev, .lorocmixlev, .lorosurmixlev,
    .dsurexmod, .dheadphonmod, .adconvtyp, .hpfon, .lpfon, .atton, .compre, .compr1, .dynrnge, .dynrng1, .dynrng2,
    .dynrng3, .dynrng4] : List Ac3Field).getD n (.further (Fin.ofNat 31 (n - 33)))

theorem fieldAt_index (f : Ac3Field) : fieldAt f.index.val = f := by
  cases f with
  | further k =>
    show Ac3Field.further (Fin.ofNat 31 (k.val + 33 - 33)) = .further k
    rw [Nat.add_sub_cancel, Fin.ofNat_val_eq_self]
  | _ => rfl

/-- Each field has a place of its own (10_state R37). -/
theorem index_inj {f g : Ac3Field} (h : f.index.val = g.index.val) : f = g := by
  rw [← fieldAt_index f, h, fieldAt_index]

/-- A field of a record reads what was stored in it last, cut to the entry's width, and a store touches no other
(43_subsegments R224, 10_state R37). -/
@[simp] theorem Ac3Rec.get_store (r : Ac3Rec) (f : Ac3Field) (w v : Nat) :
    (r.store (f, w) v).get f = BitVec.ofNat 32 (v % 2 ^ w) := by
  simp [Ac3Rec.get, Ac3Rec.store]

theorem Ac3Rec.get_store_ne {f g : Ac3Field} (h : f ≠ g) (r : Ac3Rec) (w v : Nat) :
    (r.store (f, w) v).get g = r.get g := by
  have hi : f.index.val ≠ g.index.val := fun hc => h (index_inj hc)
  simp only [Ac3Rec.get, Ac3Rec.store]
  exact Vector.getElem_set_ne _ _ hi

/-- A stored value is a number of the entry's width (10_state R37). -/
theorem Ac3Rec.get_store_lt (r : Ac3Rec) (f : Ac3Field) (w v : Nat) : ((r.store (f, w) v).get f).toNat < 2 ^ w := by
  rw [Ac3Rec.get_store, BitVec.toNat_ofNat]
  exact lt_of_le_of_lt (Nat.mod_le _ _) (Nat.mod_lt _ (Nat.two_pow_pos w))

/-- Storing a block keeps every field of a record within a width, if no entry of the block is wider (10_state R37). -/
theorem Ac3Rec.storeAll_lt {width : Ac3Field → Nat} : ∀ (fields : List ((Ac3Field × Nat) × Nat)) (r : Ac3Rec),
    (∀ x ∈ fields, x.1.2 ≤ width x.1.1) → (∀ f, (r.get f).toNat < 2 ^ width f) →
    ∀ f, ((r.storeAll fields).get f).toNat < 2 ^ width f
  | [], _, _, hr => hr
  | ((g, w), v) :: rest, r, hw, hr => by
    refine Ac3Rec.storeAll_lt rest (r.store (g, w) v) (fun x hx => hw x (List.mem_cons_of_mem _ hx)) (fun f => ?_)
    by_cases h : g = f
    · subst h
      exact lt_of_lt_of_le (r.get_store_lt g w v) (Nat.pow_le_pow_right (by omega) (hw _ List.mem_cons_self))
    · rw [Ac3Rec.get_store_ne h]
      exact hr f

/-- An entry of a layout is no wider than the layout makes its field. -/
theorem le_widthOf {φ : Type} [DecidableEq φ] {l : Layout φ} {f : φ} {w : Nat} (h : (f, w) ∈ l) :
    w ≤ l.widthOf f := by
  have hm : w ∈ (l.filter fun e => e.1 = f).map Prod.snd := List.mem_map.mpr ⟨(f, w), by simp [h], rfl⟩
  have key : ∀ (ns : List Nat) (a : Nat), a ≤ ns.foldl max a ∧ ∀ n ∈ ns, n ≤ ns.foldl max a := by
    intro ns
    induction ns with
    | nil => intro a; exact ⟨le_refl _, fun n hn => absurd hn List.not_mem_nil⟩
    | cons m ns ih =>
      intro a
      have h1 := ih (max a m)
      refine ⟨le_trans (le_max_left _ _) h1.1, fun n hn => ?_⟩
      rcases List.mem_cons.mp hn with rfl | hn
      · exact le_trans (le_max_right _ _) h1.1
      · exact h1.2 n hn
  exact (key _ 0).2 w hm

/-- An entry of either AC3 layout is no wider than a record holds its field (10_state R37). -/
theorem le_recordWidth {par : Params} {ext : Bool} {f : Ac3Field} {w : Nat} (h : (f, w) ∈ par.ac3Layout ext) :
    w ≤ par.recordWidth f := by
  cases ext
  · exact le_trans (le_widthOf h) (le_max_left _ _)
  · exact le_trans (le_widthOf h) (le_max_right _ _)

/-- The check of one program's AC3 block never aborts (43_subsegments R228). -/
theorem ac3checkOp_run (base : Bool) (p : Fin 8) (s : State) :
    ac3checkOp base p s = .ok () (s.setEv (s.ev ++
      if 19#32 ≤ ((s.recs base)[p]).get .datarate ∧ ((s.recs base)[p]).get .datarate ≤ 30#32
        then [.ac3Reserved p .datarate (((s.recs base)[p]).get .datarate).toNat] else [])) := by
  rw [ac3checkOp, op_bind_ok (op_get s), whenOp_emit]
  simp only [Bool.and_eq_true, decide_eq_true_eq]

@[simp] theorem updRec_run (base : Bool) (p : Fin 8) (f : Ac3Rec → Ac3Rec) (s : State) :
    updRec base p f s = .ok () (s.setRecs base (vset (s.recs base) p (f ((s.recs base)[p])))) := rfl

/-- The fields of an AC3 block are stored and their bits taken (43_subsegments R224). -/
theorem readAc3Fields_ok {s : State} {d : Depth} (hs : s.Ready d) (base : Bool) (p : Fin 8) (l : Layout Ac3Field)
    (hw : ∀ x ∈ l, 1 ≤ x.2 ∧ x.2 ≤ 32) (hlen : (s.consume d l.bits).src.POS ≤ s.src.MEM.len) :
    readLayout (fun e v => updRec base p fun r => r.store e v) l s =
      .ok () ((s.consume d l.bits).setRecs base
        (vset (s.recs base) p (((s.recs base)[p]).storeAll (s.layoutFields d 0 l)))) := by
  have h := readLayout_ok (d := d) (store := fun e v => updRec base p fun r => r.store e v)
    (g := fun e v s => s.setRecs base (vset (s.recs base) p (((s.recs base)[p]).store e v)))
    (fun _ _ _ => rfl) (fun _ _ _ _ => by cases base <;> rfl) (fun _ _ _ _ _ => by cases base <;> rfl)
    (fun _ _ _ hr => by cases base <;> exact ⟨hr.depth, hr.res⟩) (fun _ _ _ => by cases base <;> rfl) l s hs hw hlen
  have hf : ∀ (xs : List ((Ac3Field × Nat) × Nat)) (t : State),
      xs.foldl (fun t x => t.setRecs base (vset (t.recs base) p (((t.recs base)[p]).store x.1 x.2))) t
        = t.setRecs base (vset (t.recs base) p (((t.recs base)[p]).storeAll xs)) := by
    intro xs
    induction xs with
    | nil =>
      intro t
      have e : vset (t.recs base) p (((t.recs base)[p]).storeAll []) = t.recs base := by simp [Ac3Rec.storeAll, vset]
      rw [e]
      cases base <;> rfl
    | cons x xs ih =>
      intro t
      rw [List.foldl_cons, ih]
      have e : (t.setRecs base (vset (t.recs base) p (((t.recs base)[p]).store x.1 x.2))).recs base
          = vset (t.recs base) p (((t.recs base)[p]).store x.1 x.2) := by cases base <;> rfl
      rw [e]
      have e2 : (vset (t.recs base) p (((t.recs base)[p]).store x.1 x.2))[p] = ((t.recs base)[p]).store x.1 x.2 := by
        simp [vset]
      rw [e2]
      have e3 : ∀ a b : Ac3Rec, vset (vset (t.recs base) p a) p b = vset (t.recs base) p b := by
        intro a b
        simp [vset]
      rw [e3]
      cases base <;> rfl
  rw [h, hf]
  cases base <;> rfl

@[simp] theorem countSubseg_run (base : Bool) (s : State) :
    countSubseg base s = .ok () (s.setFr (if base then { s.fr with NSUBM := satSucc s.fr.NSUBM }
      else { s.fr with NSUBX := satSucc s.fr.NSUBX })) := rfl

/-- Counting saturates at 255 (10_state R38). -/
theorem satSucc_eq (v : BitVec 8) : satSucc v = BitVec.ofNat 8 (min (v.toNat + 1) 255) := by
  revert v
  decide

/-- One turn of the loop: the terminating id (43_subsegments R222). -/
theorem subsegFrom_done {base : Bool} {fuel : Nat} {s t : State} (h : getbitsOp 4 s = .ok 0#4 t) :
    subsegFrom base (fuel + 1) s = .ok () t := by
  rw [subsegFrom, op_bind_ok h]
  rfl

/-- One turn of the loop: a sub-block (43_subsegments R222). -/
theorem subsegFrom_block {base : Bool} {fuel : Nat} {s t u : State} {id : BitVec 4} {len : BitVec 12}
    (h1 : getbitsOp 4 s = .ok id t) (h0 : id ≠ 0#4) (h2 : getbitsOp 12 t = .ok len u) :
    subsegFrom base (fuel + 1) s = (subBlock base id len >>= fun _ => subsegFrom base fuel) u := by
  rw [subsegFrom, op_bind_ok h1, if_neg h0, op_bind_ok h2]

end Sys2Proof.Machine
end

