-- ==== Sys2Proof/Laws/Memory.lean ====
section
/-! SUPPORT. The stream as data: a byte written is read back, every other byte stays, every operation keeps the
canonical form, and equal contents are equal data. -/

namespace Sys2Proof.Machine

theorem cellsWf_cons {len lo a : Nat} {v : Byte} {rest : List Host.Cell} :
    cellsWf len lo ((a, v) :: rest) = true ↔ lo ≤ a ∧ a < len ∧ v ≠ 0#8 ∧ cellsWf len (a + 1) rest = true := by
  simp [cellsWf, and_assoc]

theorem cellsWf_mono {len len' : Nat} (hlen : len ≤ len') :
    ∀ {lo lo' : Nat} {cells : List Host.Cell}, lo' ≤ lo → cellsWf len lo cells = true → cellsWf len' lo' cells = true
  | _, _, [], _, _ => rfl
  | _, _, (_, _) :: _, h, hw => by
    rw [cellsWf_cons] at hw ⊢
    exact ⟨by omega, by omega, hw.2.2.1, cellsWf_mono hlen (Nat.le_refl _) hw.2.2.2⟩

/-- Nothing is listed below the lower bound. -/
theorem lookupByte_below {len : Nat} :
    ∀ {lo a : Nat} {cells : List Host.Cell}, cellsWf len lo cells = true → a < lo → lookupByte a cells = 0#8
  | _, _, [], _, _ => rfl
  | lo, a, (b, w) :: rest, hw, ha => by
    rw [cellsWf_cons] at hw
    rw [lookupByte, if_neg (by omega)]
    exact lookupByte_below hw.2.2.2 (by omega)

theorem insertCell_wf {len : Nat} {v : Byte} :
    ∀ {lo a : Nat} {cells : List Host.Cell}, cellsWf len lo cells = true → lo ≤ a → a < len →
      cellsWf len lo (insertCell a v cells) = true
  | lo, a, [], _, h1, h2 => by
    rw [insertCell]
    split_ifs with hv
    · rfl
    · rw [cellsWf_cons]
      exact ⟨h1, h2, hv, rfl⟩
  | lo, a, (b, w) :: rest, hw, h1, h2 => by
    have hw' := cellsWf_cons.mp hw
    rw [insertCell]
    split_ifs with hab hv heq hv
    · exact hw
    · rw [cellsWf_cons]
      exact ⟨h1, h2, hv, cellsWf_cons.mpr ⟨by omega, hw'.2⟩⟩
    · exact cellsWf_mono (Nat.le_refl _) (by omega) hw'.2.2.2
    · rw [cellsWf_cons]
      subst heq
      exact ⟨h1, h2, hv, hw'.2.2.2⟩
    · rw [cellsWf_cons]
      exact ⟨hw'.1, hw'.2.1, hw'.2.2.1, insertCell_wf hw'.2.2.2 (by omega) h2⟩

theorem lookupByte_insertCell_same {len : Nat} {v : Byte} :
    ∀ {lo a : Nat} {cells : List Host.Cell}, cellsWf len lo cells = true → lookupByte a (insertCell a v cells) = v
  | lo, a, [], _ => by
    rw [insertCell]
    split_ifs with hv
    · rw [hv]; rfl
    · rw [lookupByte, if_pos rfl]
  | lo, a, (b, w) :: rest, hw => by
    have hw' := cellsWf_cons.mp hw
    rw [insertCell]
    split_ifs with hab hv heq hv
    · rw [lookupByte, if_neg (by omega), lookupByte_below hw'.2.2.2 (by omega), hv]
    · rw [lookupByte, if_pos rfl]
    · rw [lookupByte_below hw'.2.2.2 (by omega), hv]
    · rw [lookupByte, if_pos rfl]
    · rw [lookupByte, if_neg (by omega)]
      exact lookupByte_insertCell_same hw'.2.2.2

theorem lookupByte_insertCell_ne {v : Byte} {a x : Nat} (hx : x ≠ a) :
    ∀ {cells : List Host.Cell}, lookupByte x (insertCell a v cells) = lookupByte x cells
  | [] => by
    rw [insertCell]
    split_ifs
    · rfl
    · simp [lookupByte, hx]
  | (b, w) :: rest => by
    rw [insertCell]
    split_ifs with hab hv heq hv
    · rfl
    · rw [lookupByte, if_neg hx]
    · subst heq
      rw [lookupByte, if_neg hx]
    · subst heq
      rw [lookupByte, if_neg hx, lookupByte, if_neg hx]
    · rw [lookupByte, lookupByte, lookupByte_insertCell_ne hx]

/-! ### The stream -/

theorem Memory.write_wf {m : Memory} (h : m.wf = true) (a : Nat) (v : Byte) : (m.write a v).wf = true :=
  insertCell_wf (cellsWf_mono (Nat.le_max_left _ _) (Nat.le_refl _) h) (Nat.zero_le _)
    (lt_of_lt_of_le (Nat.lt_succ_self a) (Nat.le_max_right _ _))

/-- A byte written is read back. -/
theorem Memory.byteAt_write_same {m : Memory} (h : m.wf = true) (a : Nat) (v : Byte) : (m.write a v).byteAt a = v :=
  lookupByte_insertCell_same h

/-- Every other byte stays. -/
theorem Memory.byteAt_write_ne (m : Memory) {a x : Nat} (v : Byte) (h : x ≠ a) :
    (m.write a v).byteAt x = m.byteAt x := lookupByte_insertCell_ne h

theorem Memory.len_write (m : Memory) (a : Nat) (v : Byte) : (m.write a v).len = max m.len (a + 1) := rfl

theorem Memory.writeBytes_wf : ∀ (bs : List Byte) {m : Memory} (a : Nat), m.wf = true → (m.writeBytes a bs).wf = true
  | [], _, _, h => h
  | _ :: bs, _, a, h => Memory.writeBytes_wf bs (a + 1) (Memory.write_wf h a _)

theorem Memory.place_wf {m : Memory} (h : m.wf = true) (pos : Nat) (ws : List Nat) : (m.place pos ws).wf = true :=
  cellsWf_mono (Nat.le_max_left _ _) (Nat.le_refl _) (Memory.writeBytes_wf _ pos h)

theorem Memory.empty_wf : Memory.empty.wf = true := rfl

/-- A read gives the bytes one by one (20_memory R62). -/
theorem Memory.bytesFrom_eq (m : Memory) (a n : Nat) : m.bytesFrom a n = (List.range n).map fun i => m.byteAt (a + i) := by
  induction n generalizing a with
  | zero => rfl
  | succ n ih =>
    rw [Memory.bytesFrom, ih, List.range_succ_eq_map, List.map_cons, List.map_map]
    congr 1
    apply List.map_congr_left
    intro i _
    simp [Nat.add_assoc, Nat.add_comm 1]

theorem cells_ext {len : Nat} :
    ∀ {lo : Nat} {c1 c2 : List Host.Cell}, cellsWf len lo c1 = true → cellsWf len lo c2 = true →
      (∀ a, lookupByte a c1 = lookupByte a c2) → c1 = c2
  | _, [], [], _, _, _ => rfl
  | lo, [], (b, w) :: r, _, h2, h => by
    have h2' := cellsWf_cons.mp h2
    have := h b
    simp only [lookupByte, if_pos] at this
    exact absurd this.symm h2'.2.2.1
  | lo, (b, w) :: r, [], h1, _, h => by
    have h1' := cellsWf_cons.mp h1
    have := h b
    simp only [lookupByte, if_pos] at this
    exact absurd this h1'.2.2.1
  | lo, (b, w) :: r, (b', w') :: r', h1, h2, h => by
    have h1' := cellsWf_cons.mp h1
    have h2' := cellsWf_cons.mp h2
    have hb : b = b' := by
      by_contra hne
      rcases Nat.lt_or_gt_of_ne hne with hlt | hlt
      · have := h b
        rw [lookupByte, if_pos rfl, lookupByte, if_neg (by omega), lookupByte_below h2'.2.2.2 (by omega)] at this
        exact h1'.2.2.1 this
      · have := h b'
        rw [lookupByte, if_neg (by omega), lookupByte_below h1'.2.2.2 (by omega), lookupByte, if_pos rfl] at this
        exact h2'.2.2.1 this.symm
    subst hb
    have hw : w = w' := by
      have := h b
      rwa [lookupByte, if_pos rfl, lookupByte, if_pos rfl] at this
    subst hw
    congr 1
    apply cells_ext h1'.2.2.2 h2'.2.2.2
    intro a
    by_cases ha : a = b
    · rw [lookupByte_below h1'.2.2.2 (by omega), lookupByte_below h2'.2.2.2 (by omega)]
    · have := h a
      rwa [lookupByte, if_neg ha, lookupByte, if_neg ha] at this

/-- Streams of one length with the same bytes are the same data. -/
theorem Memory.ext_bytes {m1 m2 : Memory} (h1 : m1.wf = true) (h2 : m2.wf = true) (hl : m1.len = m2.len)
    (h : ∀ a, m1.byteAt a = m2.byteAt a) : m1 = m2 := by
  obtain ⟨l1, c1⟩ := m1
  obtain ⟨l2, c2⟩ := m2
  cases hl
  have : c1 = c2 := cells_ext h1 h2 h
  rw [this]

/-! ### SrcAlign -/

/-- The position `SrcAlign` moves to: at or after `POS`, only zeros before it, a nonzero byte or the end of the stream
at it (20_memory R66). -/
theorem Memory.skipZeros_spec (m : Memory) (a n : Nat) :
    a ≤ m.skipZeros a n ∧ m.skipZeros a n ≤ a + n ∧ (∀ x, a ≤ x → x < m.skipZeros a n → m.byteAt x = 0#8) ∧
      (m.skipZeros a n < a + n → m.byteAt (m.skipZeros a n) ≠ 0#8) := by
  induction n generalizing a with
  | zero => exact ⟨Nat.le_refl _, Nat.le_refl _, fun x h1 h2 => absurd h2 (by rw [Memory.skipZeros]; omega),
      fun h => absurd h (by rw [Memory.skipZeros]; omega)⟩
  | succ n ih =>
    rw [Memory.skipZeros]
    split_ifs with h0
    · obtain ⟨h1, h2, h3, h4⟩ := ih (a + 1)
      refine ⟨by omega, by omega, fun x hx hx' => ?_, fun h => h4 (by omega)⟩
      rcases Nat.eq_or_lt_of_le hx with he | hl
      · rw [← he]; exact h0
      · exact h3 x hl hx'
    · exact ⟨Nat.le_refl _, by omega, fun x h1 h2 => absurd h2 (by omega), fun _ => h0⟩

end Sys2Proof.Machine
end

