-- ==== Sys2Proof/Laws/PerInstr.lean ====
section
/-! SUPPORT. A statement about every instruction as syntax, one lemma per constructor: the code an instruction is encoded
as has a length its slot admits, and its bits fit in that length (30_encoding R92 to R114). -/

namespace Sys2Proof.Laws.EncodeFits

/-- The encoding of a well-formed instruction is a code of its format, under whatever parameters. -/
def Statement (i : Instr) : Prop :=
  ∀ par : Params, i.wellFormed par = true → ∀ u, encode par i = some u →
    u.slot.admits par u.nbits = true ∧ u.bits < 2 ^ u.nbits

/-- Values that fit their fields make a block that fits its layout. -/
theorem joinBits_lt : ∀ (ws vs : List Nat), fitsWidths ws vs = true → joinBits ws vs < 2 ^ ws.sum
  | [], _, _ => by simp [joinBits]
  | w :: ws, [], h => by simp [fitsWidths] at h
  | w :: ws, v :: vs, h => by
    simp only [fitsWidths, Bool.and_eq_true, decide_eq_true_eq] at h
    have ih := joinBits_lt ws vs h.2
    rw [joinBits, List.sum_cons, pow_add]
    calc v * 2 ^ ws.sum + joinBits ws vs < v * 2 ^ ws.sum + 2 ^ ws.sum := by omega
      _ = (v + 1) * 2 ^ ws.sum := by ring
      _ ≤ 2 ^ w * 2 ^ ws.sum := Nat.mul_le_mul_right _ h.1

/-- An encoding by a bit vector of the format's width. -/
theorem of_bits {par : Params} {n : Nat} (slot : Slot) (v : BitVec n) (h : slot.admits par n = true) (u : Code)
    (hu : some (Code.mk slot n v.toNat) = some u) : u.slot.admits par u.nbits = true ∧ u.bits < 2 ^ u.nbits := by
  cases hu
  exact ⟨h, v.isLt⟩

/-- An encoding by a number. -/
theorem of_num {par : Params} {n b : Nat} (slot : Slot) (h : slot.admits par n = true) (hb : b < 2 ^ n) (u : Code)
    (hu : some (Code.mk slot n b) = some u) : u.slot.admits par u.nbits = true ∧ u.bits < 2 ^ u.nbits := by
  cases hu
  exact ⟨h, hb⟩

theorem nop : Statement (.nop) :=
  fun _ _ u h => of_num _ rfl (by decide) u h

theorem readFrame : Statement (.readFrame) :=
  fun _ _ u h => of_num _ rfl (by decide) u h

theorem probe : Statement (.probe) :=
  fun _ _ u h => of_num _ rfl (by decide) u h

theorem align : Statement (.align) :=
  fun _ _ u h => of_num _ rfl (by decide) u h

theorem clear : Statement (.clear) :=
  fun _ _ u h => of_num _ rfl (by decide) u h

theorem cmdReserved5 : Statement (.cmdReserved5) :=
  fun _ _ u h => of_num _ rfl (by decide) u h

theorem cmdReserved6 : Statement (.cmdReserved6) :=
  fun _ _ u h => of_num _ rfl (by decide) u h

theorem cmdReserved7 : Statement (.cmdReserved7) :=
  fun _ _ u h => of_num _ rfl (by decide) u h

theorem idle : Statement (.idle) :=
  fun _ _ u h => of_num _ rfl (by decide) u h

theorem preamble : Statement (.preamble) :=
  fun _ _ u h => of_num _ rfl (by decide) u h

theorem burstinfo : Statement (.burstinfo) :=
  fun _ _ u h => of_num _ rfl (by decide) u h

theorem sync : Statement (.sync) :=
  fun _ _ u h => of_num _ rfl (by decide) u h

theorem metadata : Statement (.metadata) :=
  fun _ _ u h => of_num _ rfl (by decide) u h

theorem framedist : Statement (.framedist) :=
  fun _ _ u h => of_num _ rfl (by decide) u h

theorem progmeta : Statement (.progmeta) :=
  fun _ _ u h => of_num _ rfl (by decide) u h

theorem chanmeta : Statement (.chanmeta) :=
  fun _ _ u h => of_num _ rfl (by decide) u h

theorem mdsubseg : Statement (.mdsubseg) :=
  fun _ _ u h => of_num _ rfl (by decide) u h

theorem audio : Statement (.audio) :=
  fun _ _ u h => of_num _ rfl (by decide) u h

theorem extsubseg : Statement (.extsubseg) :=
  fun _ _ u h => of_num _ rfl (by decide) u h

theorem audioext : Statement (.audioext) :=
  fun _ _ u h => of_num _ rfl (by decide) u h

theorem meter : Statement (.meter) :=
  fun _ _ u h => of_num _ rfl (by decide) u h

theorem complete : Statement (.complete) :=
  fun _ _ u h => of_num _ rfl (by decide) u h

theorem probescan : Statement (.probescan) :=
  fun _ _ u h => of_num _ rfl (by decide) u h

theorem pa16 : Statement (.pa16) :=
  fun _ _ u h => of_num _ rfl (by decide) u h

theorem pa20 : Statement (.pa20) :=
  fun _ _ u h => of_num _ rfl (by decide) u h

theorem pa24 : Statement (.pa24) :=
  fun _ _ u h => of_num _ rfl (by decide) u h

theorem pb16 : Statement (.pb16) :=
  fun _ _ u h => of_num _ rfl (by decide) u h

theorem pb20 : Statement (.pb20) :=
  fun _ _ u h => of_num _ rfl (by decide) u h

theorem pb24 : Statement (.pb24) :=
  fun _ _ u h => of_num _ rfl (by decide) u h

theorem bi1 (streamNo : BitVec 3) (dtd : BitVec 5) (errf : BitVec 1) (mode : BitVec 2) (dtype : BitVec 5) (rsv : BitVec 16) : Statement (.bi1 streamNo dtd errf mode dtype rsv) :=
  fun _ _ u h => of_bits _ _ rfl u h

theorem bi2 (len : BitVec 20) (rsv : BitVec 12) : Statement (.bi2 len rsv) :=
  fun _ _ u h => of_bits _ _ rfl u h

theorem sync16 (k : BitVec 1) : Statement (.sync16 k) :=
  fun _ _ u h => of_bits _ _ rfl u h

theorem sync20 (k : BitVec 1) : Statement (.sync20 k) :=
  fun _ _ u h => of_bits _ _ rfl u h

theorem sync24 (k : BitVec 1) : Statement (.sync24 k) :=
  fun _ _ u h => of_bits _ _ rfl u h

theorem keyw16 (k : BitVec 16) : Statement (.keyw16 k) :=
  fun _ _ u h => of_bits _ _ rfl u h

theorem keyw20 (k : BitVec 20) : Statement (.keyw20 k) :=
  fun _ _ u h => of_bits _ _ rfl u h

theorem keyw24 (k : BitVec 24) : Statement (.keyw24 k) :=
  fun _ _ u h => of_bits _ _ rfl u h

theorem crcw16 (r : Region) (c : BitVec 16) : Statement (.crcw16 r c) :=
  fun _ _ u h => of_bits _ _ rfl u h

theorem crcw20 (r : Region) (c : BitVec 20) : Statement (.crcw20 r c) :=
  fun _ _ u h => of_bits _ _ rfl u h

theorem crcw24 (r : Region) (c : BitVec 24) : Statement (.crcw24 r c) :=
  fun _ _ u h => of_bits _ _ rfl u h

theorem audiosample16 (a : BitVec 16) : Statement (.audiosample16 a) :=
  fun _ _ u h => of_bits _ _ rfl u h

theorem audiosample20 (a : BitVec 20) : Statement (.audiosample20 a) :=
  fun _ _ u h => of_bits _ _ rfl u h

theorem audiosample24 (a : BitVec 24) : Statement (.audiosample24 a) :=
  fun _ _ u h => of_bits _ _ rfl u h

theorem mdhdr (mdid : BitVec 4) (size : BitVec 10) (pcfgc : BitVec 6) (frc : BitVec 4) : Statement (.mdhdr mdid size pcfgc frc) :=
  fun _ _ u h => of_bits _ _ rfl u h

theorem tcblock (vals : List Nat) : Statement (.tcblock vals) :=
  fun _ hw u h => of_num _ (beq_self_eq_true _) (joinBits_lt _ _ hw) u h

theorem chsz (c : Fin 8) (size : BitVec 10) : Statement (.chsz c size) :=
  fun _ _ u h => of_bits _ _ rfl u h

theorem extsz (size : BitVec 8) : Statement (.extsz size) :=
  fun _ _ u h => of_bits _ _ rfl u h

theorem metsz (size : BitVec 8) : Statement (.metsz size) :=
  fun _ _ u h => of_bits _ _ rfl u h

theorem pmeta (p : Fin 8) (ch : BitVec 8) (bw : BitVec 2) : Statement (.pmeta p ch bw) :=
  fun _ _ u h => of_bits _ _ rfl u h

theorem cmeta (c : Fin 8) (rev : BitVec 4) (pool : BitVec 1) (bgain : BitVec 10) (egain : BitVec 10) : Statement (.cmeta c rev pool bgain egain) :=
  fun _ _ u h => of_bits _ _ rfl u h

theorem nul (p : Fin 8) : Statement (.nul p) :=
  fun _ _ u h => of_num _ rfl (by decide) u h

theorem stx (p : Fin 8) : Statement (.stx p) :=
  fun _ _ u h => of_num _ rfl (by decide) u h

theorem etx (p : Fin 8) : Statement (.etx p) :=
  fun _ _ u h => of_num _ rfl (by decide) u h

theorem print (p : Fin 8) (ch : BitVec 8) : Statement (.print p ch) :=
  fun _ _ u h => of_bits _ _ rfl u h

theorem charOther (p : Fin 8) (ch : BitVec 8) : Statement (.charOther p ch) :=
  fun _ _ u h => of_bits _ _ rfl u h

theorem subend (base : Bool) : Statement (.subend base) :=
  fun _ _ u h => of_num _ rfl (by decide) u h

theorem ac3x (base : Bool) (len : BitVec 12) : Statement (.ac3x base len) :=
  fun _ _ u h => of_bits _ _ rfl u h

theorem ac3b (len : BitVec 12) : Statement (.ac3b len) :=
  fun _ _ u h => of_bits _ _ rfl u h

theorem subskip2x (len : BitVec 12) : Statement (.subskip2x len) :=
  fun _ _ u h => of_bits _ _ rfl u h

theorem subskip3 (base : Bool) (len : BitVec 12) : Statement (.subskip3 base len) :=
  fun _ _ u h => of_bits _ _ rfl u h

theorem subskip4to7 (base : Bool) (i : BitVec 2) (len : BitVec 12) : Statement (.subskip4to7 base i len) :=
  fun _ _ u h => of_bits _ _ rfl u h

theorem subskip8to15 (base : Bool) (i : BitVec 3) (len : BitVec 12) : Statement (.subskip8to15 base i len) :=
  fun _ _ u h => of_bits _ _ rfl u h

theorem ac3base (base : Bool) (p : Fin 8) (vals : List Nat) : Statement (.ac3base base p vals) :=
  fun _ hw u h => of_num _ (beq_self_eq_true _) (joinBits_lt _ _ hw) u h

theorem ac3ext (base : Bool) (p : Fin 8) (vals : List Nat) (more : List Nat) : Statement (.ac3ext base p vals more) :=
  fun _ hw u h => of_num _ (beq_self_eq_true _) (joinBits_lt _ _ (Bool.and_eq_true_iff.mp hw).1) u h

theorem addbsi0 (base : Bool) (p : Fin 8) : Statement (.addbsi0 base p) :=
  fun _ _ u h => of_num _ rfl (by decide) u h

theorem addbsi1 (base : Bool) (p : Fin 8) (len : BitVec 6) : Statement (.addbsi1 base p len) :=
  fun _ _ u h => of_bits _ _ rfl u h

theorem peak (c : Fin 8) (v : BitVec 10) : Statement (.peak c v) :=
  fun _ _ u h => of_bits _ _ rfl u h

theorem rms (c : Fin 8) (v : BitVec 10) : Statement (.rms c v) :=
  fun _ _ u h => of_bits _ _ rfl u h

theorem pcfgValid (code : BitVec 6) : Statement (.pcfgValid code) :=
  fun _ _ u h => of_bits _ _ rfl u h

theorem pcfgReserved (code : BitVec 6) : Statement (.pcfgReserved code) :=
  fun _ _ u h => of_bits _ _ rfl u h

theorem pcfgIllegal : Statement (.pcfgIllegal) :=
  fun _ _ u h => of_num _ rfl (by decide) u h

theorem frcLow (code : BitVec 4) : Statement (.frcLow code) :=
  fun _ _ u h => of_bits _ _ rfl u h

theorem frcStd (code : BitVec 4) : Statement (.frcStd code) :=
  fun _ _ u h => of_bits _ _ rfl u h

theorem frcReserved (code : BitVec 4) : Statement (.frcReserved code) :=
  fun _ _ u h => of_bits _ _ rfl u h

theorem crcfold (v : Sample) : Statement (.crcfold v) :=
  fun _ _ u h => nomatch (h : (none : Option Code) = some u)

theorem payloadInit : Statement (.payloadInit) :=
  fun _ _ u h => nomatch (h : (none : Option Code) = some u)

theorem pullword : Statement (.pullword) :=
  fun _ _ u h => nomatch (h : (none : Option Code) = some u)

theorem getbits (n : Nat) : Statement (.getbits n) :=
  fun _ _ u h => nomatch (h : (none : Option Code) = some u)

theorem skipbits (k : Nat) : Statement (.skipbits k) :=
  fun _ _ u h => nomatch (h : (none : Option Code) = some u)

theorem regionStart (first : Bool) : Statement (.regionStart first) :=
  fun _ _ u h => nomatch (h : (none : Option Code) = some u)

theorem padseg (size : BitVec 10) (r : Region) : Statement (.padseg size r) :=
  fun _ _ u h => nomatch (h : (none : Option Code) = some u)

theorem crccheck (r : Region) : Statement (.crccheck r) :=
  fun _ _ u h => nomatch (h : (none : Option Code) = some u)

theorem timecode : Statement (.timecode) :=
  fun _ _ u h => nomatch (h : (none : Option Code) = some u)

theorem continuityUpdate (idx : Nat) (df : Bool) : Statement (.continuityUpdate idx df) :=
  fun _ _ u h => nomatch (h : (none : Option Code) = some u)

theorem continuityInvalidate : Statement (.continuityInvalidate) :=
  fun _ _ u h => nomatch (h : (none : Option Code) = some u)

theorem descchar (p : Fin 8) (ch : BitVec 8) : Statement (.descchar p ch) :=
  fun _ _ u h => nomatch (h : (none : Option Code) = some u)

theorem subsegloop (base : Bool) : Statement (.subsegloop base) :=
  fun _ _ u h => nomatch (h : (none : Option Code) = some u)

theorem skipsubseg (len : BitVec 12) : Statement (.skipsubseg len) :=
  fun _ _ u h => nomatch (h : (none : Option Code) = some u)

theorem ac3info (ext : Bool) (base : Bool) : Statement (.ac3info ext base) :=
  fun _ _ u h => nomatch (h : (none : Option Code) = some u)

theorem addbsi (base : Bool) (p : Fin 8) : Statement (.addbsi base p) :=
  fun _ _ u h => nomatch (h : (none : Option Code) = some u)

theorem ac3check (base : Bool) (p : Fin 8) : Statement (.ac3check base p) :=
  fun _ _ u h => nomatch (h : (none : Option Code) = some u)

theorem audiohalf (lo : Nat) (hi : Nat) (r : Region) : Statement (.audiohalf lo hi r) :=
  fun _ _ u h => nomatch (h : (none : Option Code) = some u)

theorem pcfg (code : BitVec 6) : Statement (.pcfg code) :=
  fun _ _ u h => nomatch (h : (none : Option Code) = some u)

theorem memRead (a : Nat) (n : Nat) : Statement (.memRead a n) :=
  fun _ _ u h => nomatch (h : (none : Option Code) = some u)

theorem srcReadWord : Statement (.srcReadWord) :=
  fun _ _ u h => nomatch (h : (none : Option Code) = some u)

theorem srcMark : Statement (.srcMark) :=
  fun _ _ u h => nomatch (h : (none : Option Code) = some u)

theorem srcReset : Statement (.srcReset) :=
  fun _ _ u h => nomatch (h : (none : Option Code) = some u)

theorem srcAlign : Statement (.srcAlign) :=
  fun _ _ u h => nomatch (h : (none : Option Code) = some u)

theorem raise (e : ErrVal) : Statement (.raise e) :=
  fun _ _ u h => nomatch (h : (none : Option Code) = some u)

theorem emit (e : Event) : Statement (.emit e) :=
  fun _ _ u h => nomatch (h : (none : Option Code) = some u)

end Sys2Proof.Laws.EncodeFits
end

