-- ==== Sys2Proof/Tests/Slice0.lean ====
section
/-! SUPPORT. Tests: the well-formedness checks refuse ill-formed terms; words written out from the encoding tables
decode to what they stand for; single steps against the examples of the rules and the vectors of 95_test_vectors; and,
for each statement with hypotheses, a state and operands that meet them. -/

set_option Elab.async false

namespace Sys2Proof.Tests

open Sys2Proof Sys2Proof.Machine

/-- The parameters of the tests: the spec's defaults (00_scope R7). -/
abbrev par0 : Params := defaultParams

/-! ### Well-formedness: each check refuses an ill-formed term -/

theorem test_wf_print_low : (Instr.print 0 0x1F#8).wellFormed par0 = false := by decide
theorem test_wf_print_high : (Instr.print 0 0x7F#8).wellFormed par0 = false := by decide
theorem test_wf_charOther_printable : (Instr.charOther 0 0x41#8).wellFormed par0 = false := by decide
theorem test_wf_charOther_nul : (Instr.charOther 0 0x00#8).wellFormed par0 = false := by decide
theorem test_wf_charOther_stx : (Instr.charOther 0 0x02#8).wellFormed par0 = false := by decide
theorem test_wf_charOther_etx : (Instr.charOther 0 0x03#8).wellFormed par0 = false := by decide
theorem test_wf_pcfgValid : (Instr.pcfgValid 24#6).wellFormed par0 = false := by decide
theorem test_wf_pcfgReserved_low : (Instr.pcfgReserved 23#6).wellFormed par0 = false := by decide
theorem test_wf_pcfgReserved_high : (Instr.pcfgReserved 63#6).wellFormed par0 = false := by decide
theorem test_wf_frcLow_low : (Instr.frcLow 0#4).wellFormed par0 = false := by decide
theorem test_wf_frcLow_high : (Instr.frcLow 6#4).wellFormed par0 = false := by decide
theorem test_wf_frcStd_low : (Instr.frcStd 5#4).wellFormed par0 = false := by decide
theorem test_wf_frcStd_high : (Instr.frcStd 9#4).wellFormed par0 = false := by decide
theorem test_wf_frcReserved : (Instr.frcReserved 8#4).wellFormed par0 = false := by decide
theorem test_wf_getbits_low : (Instr.getbits 0).wellFormed par0 = false := by decide
theorem test_wf_getbits_high : (Instr.getbits 33).wellFormed par0 = false := by decide
theorem test_wf_audiohalf_order : (Instr.audiohalf 4 2 .audio0).wellFormed par0 = false := by decide
theorem test_wf_audiohalf_high : (Instr.audiohalf 4 9 .audio0).wellFormed par0 = false := by decide
theorem test_wf_raise_reserved : (Instr.raise (.pcfgReserved 23#6)).wellFormed par0 = false := by decide
theorem test_wf_raise_illegal : (Instr.raise (.pcfgIllegal 62#6)).wellFormed par0 = false := by decide
theorem test_wf_raise_range : (Instr.raise (.pcfgRange 63)).wellFormed par0 = false := by decide
theorem test_wf_raise_frc : (Instr.raise (.frcReserved 1#4)).wellFormed par0 = false := by decide
theorem test_wf_raise_dtype : (Instr.raise (.notDolbyE 28#5)).wellFormed par0 = false := by decide
theorem test_wf_tcblock_count : (Instr.tcblock [0, 1]).wellFormed par0 = false := by decide
theorem test_wf_tcblock_width : (Instr.tcblock [0, 4, 0, 0, 5, 9, 0, 5, 9, 0, 1, 2, 9]).wellFormed par0 = false := by decide
theorem test_wf_ac3base : (Instr.ac3base true 0 [32, 0, 0, 0, 0, 0, 0, 0, 0, 0, 0, 0, 0, 0, 0]).wellFormed par0 = false := by
  decide
theorem test_wf_ac3ext : (Instr.ac3ext true 0 [14, 0, 7, 1, 2, 2, 1, 27, 0, 0, 1, 25, 1, 1, 0] []).wellFormed par0 = false := by
  decide
theorem test_wf_ac3ext_split : (Instr.ac3ext true 0 [14, 0, 7, 1, 2, 2, 1, 27, 0, 0, 1, 25, 1, 1]
    [1, 2, 4, 4, 3, 3, 1, 2, 1, 1, 0, 1, 0, 3, 1, 0x80, 0x81, 0x82, 0x83]).wellFormed par0 = false := by decide

/-! ### Decoding: words written out from 30_encoding -/

/-- R92: the eight command codes. -/
theorem test_decode_commands :
    decode par0 ⟨.cmd, 3, 0b000⟩ = .ok .nop ∧ decode par0 ⟨.cmd, 3, 0b001⟩ = .ok .readFrame ∧
    decode par0 ⟨.cmd, 3, 0b010⟩ = .ok .probe ∧ decode par0 ⟨.cmd, 3, 0b011⟩ = .ok .align ∧
    decode par0 ⟨.cmd, 3, 0b100⟩ = .ok .clear ∧ decode par0 ⟨.cmd, 3, 0b101⟩ = .ok .cmdReserved5 ∧
    decode par0 ⟨.cmd, 3, 0b110⟩ = .ok .cmdReserved6 ∧ decode par0 ⟨.cmd, 3, 0b111⟩ = .ok .cmdReserved7 := by decide

/-- 10_state R26: the sixteen values of `ST`; 15 is none. -/
theorem test_decode_states :
    decode par0 ⟨.state, 4, 0⟩ = .ok .idle ∧ decode par0 ⟨.state, 4, 1⟩ = .ok .preamble ∧
    decode par0 ⟨.state, 4, 2⟩ = .ok .burstinfo ∧ decode par0 ⟨.state, 4, 3⟩ = .ok .sync ∧
    decode par0 ⟨.state, 4, 4⟩ = .ok .metadata ∧ decode par0 ⟨.state, 4, 5⟩ = .ok .framedist ∧
    decode par0 ⟨.state, 4, 6⟩ = .ok .progmeta ∧ decode par0 ⟨.state, 4, 7⟩ = .ok .chanmeta ∧
    decode par0 ⟨.state, 4, 8⟩ = .ok .mdsubseg ∧ decode par0 ⟨.state, 4, 9⟩ = .ok .audio ∧
    decode par0 ⟨.state, 4, 10⟩ = .ok .extsubseg ∧ decode par0 ⟨.state, 4, 11⟩ = .ok .audioext ∧
    decode par0 ⟨.state, 4, 12⟩ = .ok .meter ∧ decode par0 ⟨.state, 4, 13⟩ = .ok .complete ∧
    decode par0 ⟨.state, 4, 14⟩ = .ok .probescan ∧ decode par0 ⟨.state, 4, 15⟩ = .error .stUnused := by decide

/-- R93, R94: the preamble words, and words that are none. -/
theorem test_decode_preamble :
    decode par0 ⟨.preamble1, 32, 0xF8720000⟩ = .ok .pa16 ∧ decode par0 ⟨.preamble1, 32, 0x6F872000⟩ = .ok .pa20 ∧
    decode par0 ⟨.preamble1, 32, 0x96F87200⟩ = .ok .pa24 ∧ decode par0 ⟨.preamble2, 32, 0x4E1F0000⟩ = .ok .pb16 ∧
    decode par0 ⟨.preamble2, 32, 0x54E1F000⟩ = .ok .pb20 ∧ decode par0 ⟨.preamble2, 32, 0xA54E1F00⟩ = .ok .pb24 ∧
    decode par0 ⟨.preamble1, 32, 0xF8720001⟩ = .error (.notPreamble1 0xF8720001) ∧
    decode par0 ⟨.preamble2, 32, 0x4E1F0001⟩ = .error (.notPreamble2 0x4E1F0001) := by decide

/-- R95: stream 5, data-type-data 18, error 1, mode 2, type 28, then sixteen reserved bits. -/
theorem test_decode_burst1 :
    decode par0 ⟨.burst1, 32, 0b101_10010_1_10_11100_0000000011111111⟩ = .ok (.bi1 5 18 1 2 28 0x00FF) := by decide

/-- R96: bit length 480 in bits 31 to 12. -/
theorem test_decode_burst2 :
    decode par0 ⟨.burst2, 32, 0b00000000000111100000_000000000101⟩ = .ok (.bi2 480 5) := by decide

/-- R97: the sync word of each depth, with and without the key flag. -/
theorem test_decode_sync :
    decode par0 ⟨.sync .d16, 16, 0b0000011110001110⟩ = .ok (.sync16 0) ∧
    decode par0 ⟨.sync .d16, 16, 0b0000011110001111⟩ = .ok (.sync16 1) ∧
    decode par0 ⟨.sync .d20, 20, 0b00000111100010001111⟩ = .ok (.sync20 1) ∧
    decode par0 ⟨.sync .d24, 24, 0b000001111000100010001110⟩ = .ok (.sync24 0) ∧
    decode par0 ⟨.sync .d16, 16, 0x078C⟩ = .error (.notSync .d16 0x078C) := by decide

/-- R98: all bits of a key word are the key. -/
theorem test_decode_key :
    decode par0 ⟨.key .d16, 16, 0x5A5B⟩ = .ok (.keyw16 0x5A5B) ∧ decode par0 ⟨.key .d20, 20, 0xABCDE⟩ = .ok (.keyw20 0xABCDE) ∧
    decode par0 ⟨.key .d24, 24, 0x800001⟩ = .ok (.keyw24 0x800001) := by decide

/-- R109: a codeword in its region. -/
theorem test_decode_crc :
    decode par0 ⟨.crcWord .d16 .audio0, 16, 0x199D⟩ = .ok (.crcw16 .audio0 0x199D) ∧
    decode par0 ⟨.crcWord .d20 .extMeta, 20, 0x0FEC1⟩ = .ok (.crcw20 .extMeta 0x0FEC1) ∧
    decode par0 ⟨.crcWord .d24 .meter, 24, 0x00895E⟩ = .ok (.crcw24 .meter 0x00895E) := by decide

/-- R107: an audio sample. -/
theorem test_decode_audio :
    decode par0 ⟨.audioSample .d16, 16, 0x8001⟩ = .ok (.audiosample16 0x8001) ∧
    decode par0 ⟨.audioSample .d20, 20, 0x80001⟩ = .ok (.audiosample20 0x80001) ∧
    decode par0 ⟨.audioSample .d24, 24, 0x800001⟩ = .ok (.audiosample24 0x800001) := by decide

/-- R99, V-MD-1: `0100 0000011010 001011 0011`. -/
theorem test_decode_mdhdr :
    decode par0 ⟨.mdhdr, 24, 0b0100_0000011010_001011_0011⟩ = .ok (.mdhdr 4 26 11 3) := by decide

/-- R100, V-TC-1: 10:59:59:29, drop frame, the unused fields zero but for the last bit of the first. -/
theorem test_decode_tcblock :
    decode par0 ⟨.tcblock, 64,
        0b0000000001_01_0000_000000000_101_1001_000000000_101_1001_000000000_1_10_1001⟩ =
      .ok (.tcblock [1, 1, 0, 0, 5, 9, 0, 5, 9, 0, 1, 2, 9]) := by decide

/-- R101. -/
theorem test_decode_sizes :
    decode par0 ⟨.chsz 7, 10, 0b1000000001⟩ = .ok (.chsz 7 513) ∧ decode par0 ⟨.extsz, 8, 0b10000001⟩ = .ok (.extsz 129) ∧
    decode par0 ⟨.metsz, 8, 0b00000101⟩ = .ok (.metsz 5) := by decide

/-- R102: `01001000 01`. -/
theorem test_decode_pmeta : decode par0 ⟨.pmeta 1, 10, 0b01001000_01⟩ = .ok (.pmeta 1 0x48 1) := by decide

/-- R103: `0011 1 1111111111 0000000000`. -/
theorem test_decode_cmeta :
    decode par0 ⟨.cmeta 3, 25, 0b0011_1_1111111111_0000000000⟩ = .ok (.cmeta 3 3 1 1023 0) := by decide

/-- R111: the character classes at their borders. -/
theorem test_decode_characters :
    decode par0 ⟨.descChar 0, 8, 0x00⟩ = .ok (.nul 0) ∧ decode par0 ⟨.descChar 1, 8, 0x02⟩ = .ok (.stx 1) ∧
    decode par0 ⟨.descChar 2, 8, 0x03⟩ = .ok (.etx 2) ∧ decode par0 ⟨.descChar 3, 8, 0x20⟩ = .ok (.print 3 0x20) ∧
    decode par0 ⟨.descChar 4, 8, 0x7E⟩ = .ok (.print 4 0x7E) ∧ decode par0 ⟨.descChar 5, 8, 0x7F⟩ = .ok (.charOther 5 0x7F) ∧
    decode par0 ⟨.descChar 6, 8, 0x1F⟩ = .ok (.charOther 6 0x1F) ∧ decode par0 ⟨.descChar 7, 8, 0x01⟩ = .ok (.charOther 7 0x01) :=
  by decide

/-- R104: the subsegment headers; id 2 depends on the loop. -/
theorem test_decode_subsegments :
    decode par0 ⟨.subHeader true, 4, 0b0000⟩ = .ok (.subend true) ∧
    decode par0 ⟨.subHeader false, 16, 0b0001_000001101011⟩ = .ok (.ac3x false 107) ∧
    decode par0 ⟨.subHeader true, 16, 0b0010_000000101010⟩ = .ok (.ac3b 42) ∧
    decode par0 ⟨.subHeader false, 16, 0b0010_000000001010⟩ = .ok (.subskip2x 10) ∧
    decode par0 ⟨.subHeader true, 16, 0b0011_111111111111⟩ = .ok (.subskip3 true 4095) ∧
    decode par0 ⟨.subHeader true, 16, 0b0101_000000101000⟩ = .ok (.subskip4to7 true 1 40) ∧
    decode par0 ⟨.subHeader false, 16, 0b1001_000000000000⟩ = .ok (.subskip8to15 false 1 0) ∧
    decode par0 ⟨.subHeader true, 16, 0b0000_000000000000⟩ = .error .wrongLength := by decide

/-- R105, 43_subsegments R226: the fields of a base block, each with a pattern of its own. -/
theorem test_decode_ac3base :
    decode par0 ⟨.ac3Block false true 0, 42, 0b01110_000_111_01_10_10_1_11011_0_00000000_1_11001_01_1_0⟩ =
      .ok (.ac3base true 0 [14, 0, 7, 1, 2, 2, 1, 27, 0, 0, 1, 25, 1, 1, 0]) := by decide

/-- R105, 43_subsegments R227, V-AC3-1: the 106 bits of P2's base loop. -/
theorem test_decode_ac3ext :
    decode par0 ⟨.ac3Block true true 0, 106,
        0b01110_000_111_01_10_10_1_11011_0_00000000_1_11001_01_1_1_10_100_100_011_011_01_10_1_1_0_1_0_00000011_1_10000000_10000001_10000010_10000011⟩ =
      .ok (.ac3ext true 0 [14, 0, 7, 1, 2, 2, 1, 27, 0, 0, 1, 25, 1, 1, 1]
        [2, 4, 4, 3, 3, 1, 2, 1, 1, 0, 1, 0, 3, 1, 0x80, 0x81, 0x82, 0x83]) := by decide

/-- R106: absent in one bit, present in seven. -/
theorem test_decode_addbsi :
    decode par0 ⟨.addbsi true 2, 1, 0b0⟩ = .ok (.addbsi0 true 2) ∧
    decode par0 ⟨.addbsi false 3, 7, 0b1_000001⟩ = .ok (.addbsi1 false 3 1) ∧
    decode par0 ⟨.addbsi false 3, 7, 0b0_000001⟩ = .error .wrongLength := by decide

/-- R108. -/
theorem test_decode_meters :
    decode par0 ⟨.peak 0, 10, 0b1111111110⟩ = .ok (.peak 0 1022) ∧ decode par0 ⟨.rms 5, 10, 0b0000000011⟩ = .ok (.rms 5 3) := by
  decide

/-- R112, R114: the code classes at their borders. -/
theorem test_decode_classes :
    decode par0 ⟨.pcfgCode, 6, 23⟩ = .ok (.pcfgValid 23) ∧ decode par0 ⟨.pcfgCode, 6, 24⟩ = .ok (.pcfgReserved 24) ∧
    decode par0 ⟨.pcfgCode, 6, 62⟩ = .ok (.pcfgReserved 62) ∧ decode par0 ⟨.pcfgCode, 6, 63⟩ = .ok .pcfgIllegal ∧
    decode par0 ⟨.frcCode, 4, 0⟩ = .ok (.frcReserved 0) ∧ decode par0 ⟨.frcCode, 4, 1⟩ = .ok (.frcLow 1) ∧
    decode par0 ⟨.frcCode, 4, 5⟩ = .ok (.frcLow 5) ∧ decode par0 ⟨.frcCode, 4, 6⟩ = .ok (.frcStd 6) ∧
    decode par0 ⟨.frcCode, 4, 8⟩ = .ok (.frcStd 8) ∧ decode par0 ⟨.frcCode, 4, 9⟩ = .ok (.frcReserved 9) := by decide

/-- A code that is too long for its format, or of another length, is no instruction. -/
theorem test_decode_malformed :
    decode par0 ⟨.cmd, 3, 8⟩ = .error .tooWide ∧ decode par0 ⟨.extsz, 10, 8⟩ = .error .wrongLength := by decide

/-! ### Small states -/

/-- The stream of these raw words, four little-endian bytes each (20_memory R63). -/
def wordsMem (ws : List Nat) : Memory := Memory.empty.writeBytes 0 (ws.flatMap bytesOfWord)

/-- Reset with a depth and a stream. -/
def start (d : Option Depth) (ws : List Nat) : State :=
  { State.reset with
    br := { State.reset.br with DEPTH := d }, src := { State.reset.src with MEM := wordsMem ws } }

/-- Reset with a depth and a stream of `n` zero bytes. -/
def zeros (d : Option Depth) (n : Nat) : State :=
  { State.reset with
    br := { State.reset.br with DEPTH := d }, src := { State.reset.src with MEM := ⟨n, []⟩ } }

/-- A next state with this property. -/
def gives (r : Result) (f : State → Bool) : Bool :=
  match r with
  | .next t => f t
  | _ => false

/-- Program P1 of 95_test_vectors: thirty-four raw words, with words 2, 3 and 4 given. -/
def p1With (bi1 bi2 sync : Nat) : List Nat :=
  [0xF8720000, 0x4E1F0000, bi1, bi2, sync, 0x00410000, 0x26000000, 0x01000000, 0x02000000, 0x03000000, 0x04000000,
    0x40100000, 0x04010000, 0x05020000, 0x45000000, 0x3FE50000, 0x801F0000] ++
  [0xF3400000, 0x0FFA0000, 0x60070000, 0xFC000000, 0x7BDA0000, 0x11110000, 0x22220000, 0x199D0000, 0x33330000,
    0x44440000, 0xE66B0000, 0xFFC00000, 0x00060000, 0x00000000, 0xC0200000, 0x04000000, 0x98020000]

/-- Program P1. -/
def p1 : State := start none (p1With 0x003C0000 0x001E0000 0x078E0000)

/-! ### Single steps -/

/-- R131, V-CRC-1. -/
theorem test_crcfold :
    gives (exec (.crcfold 0xABCD) ((zeros (some .d16) 0).setBr { (zeros (some .d16) 0).br with CRC := 0x1234 }))
        (fun t => t.br.CRC == 0x4776#16) = true ∧
    gives (exec (.crcfold 0xABCDEF) ((zeros (some .d24) 0).setBr { (zeros (some .d24) 0).br with CRC := 0x1234 }))
        (fun t => t.br.CRC == 0x777D#16) = true := by decide +kernel

/-- R133, its example with the key `0x00FF`. -/
theorem test_pullword :
    gives (exec .pullword ((start (some .d16) [0x078E0000]).setBr
        { (start (some .d16) [0x078E0000]).br with KEY := 0x00FF }))
      (fun t => t.br.CRC == 0x0771#16 && t.br.RES == 0x0771#64 && t.br.RESCNT == 16 && t.br.BYTECNT == 4 &&
        t.src.POS == 4) = true := by decide +kernel

/-- V-GET-2: depth 20, one pull. -/
theorem test_getbits :
    gives (exec (.getbits 8) (start (some .d20) [0xABCDE000, 0x12345000]))
      (fun t => t.ret == .num 0xAB && t.br.RESCNT == 12 && t.br.CRC == 0xBCE2#16 && t.br.BITCNT == 8) = true := by
  decide +kernel

/-- V-GET-5: exhaustion in mid-field. -/
theorem test_getbits_exhausted :
    gives (exec (.getbits 20) (start (some .d16) [0xA5C30000]))
      (fun t => t.seq.ERRK == 4#3 && t.seq.ERRS == 1#4 && t.br.RESCNT == 16 && t.br.BITCNT == 0 &&
        t.br.BYTECNT == 4 && t.src.POS == 4) = true := by decide +kernel

/-- R135, its example: depth 20, six residual bits, fifty skipped. -/
theorem test_skipbits :
    gives (exec (.skipbits 50) ((zeros (some .d20) 12).setBr { (zeros (some .d20) 12).br with RESCNT := 6 }))
      (fun t => t.br.RESCNT == 16 && t.br.BITCNT == 50 && t.br.BYTECNT == 12) = true := by decide +kernel

/-- V-KEY-1: the key word is read in clear. -/
theorem test_regionStart :
    gives (exec (.regionStart false) ((start (some .d16) [0x5A5A0000]).setBr
        ⟨some .d16, 0, 0, 0x1111, true, 3, 77, 0⟩))
      (fun t => t.br.KEY == 0x5A5A#24 && t.br.BITCNT == 0 && t.br.CRC == 0#16 && t.br.BYTECNT == 4) = true := by
  decide +kernel

/-- R137, its example, and an overrun. -/
theorem test_padseg :
    gives (exec (.padseg 16 .metadata) ((zeros (some .d16) 4).setBr ⟨some .d16, 0, 6, 0, false, 0, 250, 4⟩))
        (fun t => t.br.BITCNT == 256 && t.br.RESCNT == 0 && t.src.POS == 0) = true ∧
    gives (exec (.padseg 15 .metadata) ((zeros (some .d16) 4).setBr ⟨some .d16, 0, 6, 0, false, 0, 250, 4⟩))
        (fun t => t.br.BITCNT == 250 && t.ev == [.segOverrun .metadata 10]) = true := by decide +kernel

/-- R138, its example: the codeword 0x9333 leaves 1 and warns. -/
theorem test_crccheck :
    gives (exec (.crccheck .audio0) ((start (some .d16) [0x93330000]).setBr ⟨some .d16, 0, 0, 0, false, 0x4776, 0, 0⟩))
      (fun t => t.br.CRC == 0#16 && t.ev == [.crc .audio0 1 0x9333]) = true := by decide +kernel

/-- R139, S3: the codeword of the register 0x4444. -/
theorem test_crcw16 :
    codewordOf .d16 0x4444 = 0x199D ∧
    gives (exec (.crcw16 .audio0 0x199C) ((zeros (some .d16) 0).setBr ⟨some .d16, 0, 0, 0, false, 1, 0, 0⟩))
      (fun t => t.ev == [.crc .audio0 1 0x199C] && t.br.CRC == 0#16) = true := by decide +kernel

/-- V-PRE-1: a companion of another depth. -/
theorem test_preamble :
    gives (exec .preamble (start none [0x6F872000, 0x4E1F0000]))
        (fun t => t.lastErr == some (.badPreamble2 0x4E1F0000, .preamble) && t.src.POS == 8 && t.br.DEPTH == none) = true ∧
    gives (exec .preamble (start none [0x6F872000, 0x54E1F000]))
        (fun t => t.br.DEPTH == some .d20 && t.seq.ST == .burstinfo) = true := by decide +kernel

/-- V-BI-1: the last row. -/
theorem test_burst_words :
    gives (exec (.bi1 7 31 1 3 31 0xFFFF) State.reset)
        (fun t => t.bi == ⟨7, 31, 1, 3, 31, 0⟩ && t.ev == [.biDtd 31, .biMode 3, .biDtype 31]) = true ∧
    gives (exec (.bi2 0xFFFFF 0xFFF) State.reset) (fun t => t.bi.BI_BITLEN == 0xFFFFF#20 && t.ev == []) = true := by
  decide +kernel

/-- V-BI-1: a burst that is not Dolby E. The operation only warns, at no depth too (41_burst R168). -/
theorem test_burstinfo :
    gives (exec .burstinfo ((start none [0x001B0000, 0x001E0000]).setCfg { State.reset.cfg with STREAMS2 := true }))
      (fun t => t.bi == ⟨0, 0, 0, 0, 27, 480⟩ && t.ev == [.biMode 0, .biDtype 27] && t.lastErr == none &&
        t.seq.ST == .sync) = true := by decide +kernel

/-- V-BI-1, V-BI-2: `READ_FRAME` rejects the burst, run whole and run state by state (41_burst R164). -/
theorem test_burst_rejected :
    gives (exec .readFrame (start none [0xF8720000, 0x4E1F0000, 0x001B0000, 0x001E0000]))
      (fun t => t.lastErr == some (.notDolbyE 27, .burstinfo) && t.seq.ERRST == 2#4 && t.src.POS == 16) = true ∧
    gives (step (((start (some .d16) [0x003C0000, 0x001F0000]).setCfg { State.reset.cfg with STREAMS2 := true }).setSeq
        ⟨.burstinfo, true, false, 0, 0, 0⟩))
      (fun t => t.lastErr == some (.oddLength 496, .burstinfo) && t.seq.ERRST == 2#4 && t.seq.ERRS == 5#4) = true := by
  decide +kernel

/-- V-PROBE-5. -/
theorem test_probe :
    gives (exec .probe (start none [0, 0xDEADBEEF, 0xF8720000, 0x4E1F0000]))
      (fun t => t.cfg.PROBE_OFF == 8#32 && t.src.POS == 8 && t.br.DEPTH == some .d16 && t.seq.DONE && t.seq.ERRK == 0#3 &&
        t.ev == []) = true := by decide +kernel

/-- V-PROBE-4: with two streams a failed candidate is stepped past by two words. -/
theorem test_probescan :
    gives (exec .probescan ((start none [1, 2, 0x6F872000, 0x54E1F000]).setCfg
        { State.reset.cfg with STREAMS2 := true }))
      (fun t => t.cfg.PROBE_OFF == 8#32 && t.src.POS == 8 && t.br.DEPTH == some .d20) = true := by decide +kernel

/-- V-CMD-1: `ALIGN` over the bytes 00 00 00 00 00 00 20 87. -/
theorem test_align :
    gives (exec .align (start none [0, 0x87200000])) (fun t => t.src.POS == 6 && t.seq.DONE) = true := by decide +kernel

/-- V-CMD-1: `CLEAR`. -/
theorem test_clear :
    gives (exec .clear ((zeros (some .d24) 0).setSeq ⟨.idle, false, false, 1, 3, 3⟩))
      (fun t => t.seq == ⟨.idle, false, true, 0, 0, 0⟩ && t.br.DEPTH == none) = true := by decide +kernel

/-- V-SYNC-1: a bad sync word with the key bit set is refused after the key. -/
theorem test_sync :
    gives (exec .sync (start (some .d16) [0x078D0000, 0x12340000]))
        (fun t => t.lastErr == some (.badSync 0x078D, .sync) && t.src.POS == 8 && t.br.KEY == 0x1234#24) = true ∧
    gives (exec .sync (start (some .d20) [0x0788F000, 0x12345000]))
        (fun t => t.br.KEYP && t.br.KEY == 0x12345#24 && t.br.BITCNT == 0 && t.seq.ST == .metadata) = true := by
  decide +kernel

/-- V-MD-1: `0100 0000011010 001011 0011`. -/
theorem test_mdhdr :
    gives (exec (.mdhdr 4 26 11 3) State.reset)
      (fun t => t.fr.MDSIZE == 26#10 && t.fr.NCH == 6#4 && t.fr.NPROG == 1#4 && t.fr.LFR) = true := by decide +kernel

/-- V-TC-1: the digits of P1, and the sentinel. -/
theorem test_tcblock :
    gives (exec (.tcblock [0, 0, 1, 0, 0, 2, 0, 0, 3, 0, 0, 0, 4]) State.reset)
        (fun t => t.tc.TC_HU == 1#4 && t.tc.TC_MU == 2#4 && t.tc.TC_SU == 3#4 && t.tc.TC_FU == 4#4 && t.tc.TCVALID &&
          t.ev == []) = true ∧
    gives (exec (.tcblock [0, 3, 15, 0, 0, 2, 0, 0, 3, 0, 1, 0, 4]) State.reset)
        (fun t => !t.tc.TCVALID && t.ev == [.tcInvalid] && !t.cont.LASTIDX_V) = true := by decide +kernel

/-- V-TC-2, V-TC-3: a jump, and a change of the drop-frame flag. -/
theorem test_continuity :
    gives (exec (.continuityUpdate 216006 true) (State.reset.setCont ⟨true, 216002, true, false⟩))
      (fun t => t.ev == [.tcDiscont 216004 216006, .dropOn] && t.cont == ⟨true, 216006, true, true⟩) = true := by
  decide +kernel

/-- V-FD-1: six channels, low frame rate; 76 bits. -/
theorem test_framedist :
    gives (exec .framedist ((start (some .d16)
        [0x00800000, 0x00040000, 0x01000000, 0x00200000, 0x90700000]).setFr
          { State.reset.fr with NCH := 6, LFR := true }))
      (fun t => t.ch.CHSZ.toList == [2, 0, 1, 1, 0, 2, 0, 0] && t.fr.EXTSZ == 9#8 && t.fr.METSZ == 7#8 &&
        t.br.BITCNT == 76) = true := by decide +kernel

/-- R199, its example: `01001000 01`. -/
theorem test_progmeta :
    gives (exec .progmeta ((start (some .d16) [0x48400000]).setFr { State.reset.fr with NPROG := 1 }))
      (fun t => t.pg.DCHAR[0] == 0x48#8 && t.pg.BWID[0] == 1#2 && t.br.BITCNT == 10) = true := by decide +kernel

/-- R201, its example: `0011 1 1111111111 0000000000`. -/
theorem test_chanmeta :
    gives (exec .chanmeta ((start (some .d24) [0x3FFE0000, 0]).setFr { State.reset.fr with NCH := 1 }))
      (fun t => t.ch.REVID[0] == 3#4 && t.ch.BITPOOL[0] == 1#1 && t.ch.BGAIN[0] == 1023#10 && t.ch.EGAIN[0] == 0#10) =
        true := by decide +kernel

/-- V-DESC-1: frame 3. -/
theorem test_etx :
    gives (exec (.etx 0) (State.reset.setDesc (vset State.reset.desc 0 ⟨[0x48, 0x69], true, [], false⟩)))
      (fun t => t.desc[0] == ⟨[0x48, 0x69], false, [0x48, 0x69], true⟩ && t.ev == [.desc 0 2]) = true := by
  decide +kernel

/-- V-SUB-2: id 5, length 40. -/
theorem test_subskip :
    gives (exec (.subskip4to7 true 1 40) (zeros (some .d16) 12)) (fun t => t.br.BITCNT == 40 && t.fr.NSUBM == 1#8) = true :=
  by decide +kernel

/-- V-SUB-1, V-SUB-3: an empty loop; an id 1 with one program whose declared length 100 is less than the 107 bits used. -/
theorem test_subsegloop :
    gives (exec (.subsegloop true) (zeros (some .d16) 4)) (fun t => t.br.BITCNT == 4 && t.fr.NSUBM == 0#8) = true ∧
    gives (exec (.ac3x true 100) ((zeros (some .d16) 40).setFr { State.reset.fr with NPROG := 1 }))
      (fun t => t.ev == [.subsegLen 1 100 107] && t.fr.NSUBM == 1#8 && (t.ac3m[0]).VALID && (t.ac3m[0]).EXT) = true := by
  decide +kernel

/-- V-AC3-2: one byte of additional information, 15 bits. -/
theorem test_addbsi :
    gives (exec (.addbsi true 0) (start (some .d16) [0x834A0000]))
      (fun t => (t.ac3m[0]).ADDBSIE && (t.ac3m[0]).ADDBSIL == 1#6 && t.br.BITCNT == 15) = true := by decide +kernel

/-- V-AC3-3: the data-rate code 19 warns, 31 does not. -/
theorem test_ac3check :
    gives (exec (.ac3base true 2 [19, 0, 0, 0, 0, 0, 0, 0, 0, 0, 0, 0, 0, 0, 0]) State.reset)
        (fun t => t.ev == [.ac3Reserved 2 .datarate 19] && (t.ac3m[2]).VALID) = true ∧
    gives (exec (.ac3base false 2 [31, 0, 0, 0, 0, 0, 0, 0, 0, 0, 0, 0, 0, 0, 0]) State.reset)
        (fun t => t.ev == [] && (t.ac3x[2]).VALID) = true := by decide +kernel

/-- 10_state R37: a field of a record has its entry's width, so 200 in the five bits of `DATARATE` is 8. -/
theorem test_ac3base_width :
    gives (exec (.ac3base true 2 [200, 0, 0, 0, 0, 0, 0, 0, 0, 0, 0, 0, 0, 0, 0]) State.reset)
      (fun t => (t.ac3m[2]).get .datarate == 8#32) = true := by decide +kernel

/-- V-AUD-1: the first audio half of P1. -/
theorem test_audiohalf :
    gives (exec (.audiohalf 0 2 .audio0) ((start (some .d16) [0x11110000, 0x22220000, 0x199D0000]).setCh
        { State.reset.ch with CHSZ := .replicate 8 1 }))
      (fun t => t.br.CRC == 0#16 && t.ev == [] && t.src.POS == 12) = true := by decide +kernel

/-- V-MET-1: the meter segment of P1. -/
theorem test_meter :
    gives (exec .meter ((start (some .d16) [0xFFC00000, 0x00060000, 0, 0xC0200000, 0x04000000, 0x98020000]).setFr
        { State.reset.fr with NCH := 4, METSZ := 5 }))
      (fun t => t.ch.PEAK.toList == [1023, 0, 1, 512, 0, 0, 0, 0] && t.ch.RMS.toList == [3, 2, 1, 0, 0, 0, 0, 0] &&
        t.ev == []) = true := by decide +kernel

/-- V-LEN-1: two words of padding; a negative remainder. -/
theorem test_complete :
    gives (exec .complete ((zeros (some .d16) 8).setBi { State.reset.bi with BI_BITLEN := 32 }))
        (fun t => t.src.POS == 8 && t.seq.DONE) = true ∧
    gives (exec .complete (((zeros (some .d16) 8).setBi { State.reset.bi with BI_BITLEN := 15 }).setBr
        ⟨some .d16, 0, 0, 0, false, 0, 0, 4⟩))
        (fun t => t.lastErr == some (.negRemainder, .complete) && !t.seq.DONE) = true := by decide +kernel

/-- R63: a word of four bytes and a word of three. -/
theorem test_srcReadWord :
    gives (exec .srcReadWord (start none [0xF8720000])) (fun t => t.ret == .num 0xF8720000) = true ∧
    gives (exec .srcReadWord ((start none [0xF8720011]).setCfg { State.reset.cfg with PACK3 := true }))
      (fun t => t.ret == .num 0x720011 && t.src.POS == 3) = true := by decide +kernel

/-- R62: inside and past the end. -/
theorem test_memRead :
    gives (exec (.memRead 1 3) (start none [0xF8720011])) (fun t => t.ret == .bytes [0x00, 0x72, 0xF8]) = true ∧
    gives (exec (.memRead 2 3) (start none [0xF8720011])) (fun t => t.ret == .endOfData) = true := by decide +kernel

/-- V-PCFG-1: the first and the last code of each group. -/
theorem test_pcfg :
    gives (exec (.pcfg 10) State.reset) (fun t => t.ret == .pair 8 8) = true ∧
    gives (exec (.pcfg 17) State.reset) (fun t => t.ret == .pair 6 6) = true ∧
    gives (exec (.pcfg 23) State.reset) (fun t => t.ret == .pair 8 1) = true := by decide +kernel

/-- 60_exceptions R281, R282: `FRC_RESERVED` is kind 2, sub-code 4. -/
theorem test_raise :
    gives (exec (.raise (.frcReserved 9)) (State.reset.setSeq ⟨.metadata, true, false, 0, 0, 0⟩))
      (fun t => t.seq == ⟨.idle, false, false, 2, 4, 4⟩) = true := by decide +kernel

/-- P1 whole, by a host write of `CMD`. -/
theorem test_read_frame :
    gives (step (p1.setPort [.write 5 1]))
      (fun t => t.seq == ⟨.idle, false, true, 0, 0, 0⟩ && t.src.POS == 136 && t.fr.NCH == 4#4 && t.br.BYTECNT == 120 &&
        t.ev == []) = true := by decide +kernel

/-- V-BI-1 in a whole frame: the data type is refused. -/
theorem test_read_frame_refused :
    gives (step ((start none (p1With 0x001B0000 0x001E0000 0x078E0000)).setPort [.write 5 1]))
      (fun t => t.seq == ⟨.idle, false, false, 1, 4, 2⟩ && t.src.POS == 16) = true := by decide +kernel

/-- A table word placed where the next step fetches it runs as the first instruction after reset. -/
theorem test_withFetchWord :
    decodeTableWord 32 0xF8720000 = some .pa16 ∧
    gives (step (State.reset.withFetchWord 32 0xF8720000)) (fun t => t.pd == some .d16) = true := by decide +kernel

/-! ### Other parameters than the defaults (00_scope R7) -/

/-- `SEG_OVERRUN_POLICY = fault`: R137's example with a declared size one short raises. -/
theorem test_padseg_fault :
    gives (exec (.padseg 15 .metadata) { (zeros (some .d16) 4) with
        br := ⟨some .d16, 0, 6, 0, false, 0, 250, 4⟩, par := { par0 with segOverrunFaults := true } })
      (fun t => t.lastErr == some (.segOverrun .metadata, .idle) && t.seq.ERRK == 5#3 && t.seq.ERRS == 2#4 && t.ev == []) =
        true := by decide +kernel

/-- `SUBSEG_LEN_RECONCILE = false`: the declared length 100 is ignored, 107 bits are read and nothing is warned. -/
theorem test_subseg_no_reconcile :
    gives (exec (.ac3x true 100) { (zeros (some .d16) 40) with
        fr := { State.reset.fr with NPROG := 1 }, par := { par0 with subsegLenReconcile := false } })
      (fun t => t.ev == [] && t.br.BITCNT == 107 && t.fr.NSUBM == 1#8) = true := by decide +kernel

/-- `KEY_PER_REGION = false`: a region after the first reads no key (R140). -/
theorem test_key_once :
    gives (exec (.regionStart false) { (start (some .d16) [0x5A5A0000]) with
        br := ⟨some .d16, 0, 0, 0x1111, true, 3, 77, 0⟩, par := { par0 with keyPerRegion := false } })
      (fun t => t.br.KEY == 0x1111#24 && t.br.BITCNT == 0 && t.src.POS == 0) = true := by decide +kernel

/-- Another `TC_LAYOUT`: hours units before hours tens, eight bits in all. -/
theorem test_other_tcLayout :
    gives (exec .timecode { (start (some .d16) [0xA6000000]) with
        par := { par0 with tcLayout := [(.hu, 4), (.ht, 2), (.unused, 2)] } })
      (fun t => t.tc.TC_HU == 10#4 && t.tc.TC_HT == 1#2 && t.br.BITCNT == 8 && t.tc.TCVALID) = true := by decide +kernel

/-- Another `AC3_LAYOUT_BASE`, with a field the source does not name. -/
theorem test_other_ac3Layout :
    gives (exec (.ac3b 20) { (start (some .d16) [0xABCD0000, 0]) with
        fr := { State.reset.fr with NPROG := 1 }
        par := { par0 with ac3LayoutBase := [(.further 0, 12), (.dialnorm, 4)] } })
      (fun t => (t.ac3m[0]).get (.further 0) == 0xABC#32 && (t.ac3m[0]).get .dialnorm == 0xD#32 && t.br.BITCNT == 20 &&
        t.ev == []) = true := by decide +kernel

/-! ### Witnesses: each statement's hypotheses are met, clause by clause -/

theorem ready_zeros (d : Depth) (n : Nat) : (zeros (some d) n).Ready d :=
  ⟨rfl, show (0#64).toNat < 2 ^ 0 by decide⟩

theorem ok_default : par0.Ok :=
  ⟨by decide, by decide, by decide, by decide, by decide, by decide, by decide⟩

/-- The defaults with an overrun a fault. -/
def strict : Params := { par0 with segOverrunFaults := true }

theorem ok_strict : strict.Ok := ⟨by decide, by decide, by decide, by decide, by decide, by decide, by decide⟩

theorem inv_zeros : (zeros none 8).Inv where
  mem := rfl
  pos := by decide
  mark := by intro h; exact absurd h (by decide)
  rescnt := by decide
  res := by decide
  nch := by decide
  nprog := by decide
  busy := by decide
  used := by decide
  text := by
    intro p
    have h : (zeros none 8).desc[p] = ⟨[], false, [], false⟩ := by revert p; decide +kernel
    rw [h]
    exact ⟨by decide, by decide, by decide, by decide⟩
  records := by
    intro base p f
    have h : ((zeros none 8).recs base)[p] = Ac3Rec.reset := by revert base p; decide +kernel
    have h0 : ∀ i : Fin 64, Ac3Rec.reset.FIELDS[i] = 0#32 := by decide +kernel
    rw [h, Ac3Rec.get, h0]
    exact Nat.two_pow_pos _
  par := ok_default

/-- An operation that is computed to end well ends well. -/
theorem ok_exists {α : Type} (x : Op α) (s : State) (p : α → State → Bool)
    (h : (match x s with | .ok v t => p v t | .error _ _ => false) = true) : ∃ v t, x s = .ok v t ∧ p v t = true := by
  cases hx : x s with
  | ok v t => exact ⟨v, t, rfl, by simpa [hx] using h⟩
  | error e t => simp [hx] at h

theorem witness_DecodeEncode :
    (Instr.print 7 0x20).wellFormed par0 = true ∧ encode par0 (.print 7 0x20) = some ⟨.descChar 7, 8, 0x20⟩ ∧
    (Instr.charOther 7 0xFF).wellFormed par0 = true ∧ encode par0 (.charOther 7 0xFF) = some ⟨.descChar 7, 8, 0xFF⟩ ∧
    (Instr.pcfgReserved 62).wellFormed par0 = true ∧ encode par0 (.pcfgReserved 62) = some ⟨.pcfgCode, 6, 62⟩ ∧
    (Instr.sync24 1).wellFormed par0 = true ∧ encode par0 (.sync24 1) = some ⟨.sync .d24, 24, 0x07888F⟩ := by decide

theorem witness_EncodeDecode : decode par0 ⟨.subHeader true, 16, 0x3FFF⟩ = .ok (.subskip3 true 4095) := by decide

theorem witness_StepRunsDecoded_state :
    State.reset.port = [] ∧ decode par0 ⟨.state, 4, State.reset.seq.ST.code.toNat⟩ = .ok .idle := by decide

theorem witness_StepRunsDecoded_burstinfo :
    let s := (start (some .d16) [0x003C0000, 0x001E0000]).setSeq ⟨.burstinfo, true, false, 0, 0, 0⟩
    let r := (zeros none 7).setSeq ⟨.burstinfo, true, false, 0, 0, 0⟩
    s.port = [] ∧ decode par0 ⟨.state, 4, s.seq.ST.code.toNat⟩ = .ok .burstinfo ∧ gives (exec .burstinfo s) (·.seq.ST == .sync) = true ∧
    r.port = [] ∧ decode par0 ⟨.state, 4, r.seq.ST.code.toNat⟩ = .ok .burstinfo ∧
    gives (exec .burstinfo r) (·.seq.ST == .idle) = true := by decide +kernel

theorem witness_StepRunsDecoded_waiting :
    ((State.reset.setSeq ⟨.sync, true, false, 0, 0, 0⟩).setPort [.invoke .nop]).port = .invoke .nop :: [] ∧
    (Request.invoke .nop).isAccess = false ∧ SeqState.sync ≠ .idle ∧
    decode par0 ⟨.state, 4, SeqState.sync.code.toNat⟩ = .ok .sync := ⟨rfl, rfl, by decide, by decide⟩

theorem witness_StepRunsDecoded_command :
    (State.reset.setPort [.write 5 0xFFFFFFFF]).port = .write 5 0xFFFFFFFF :: [] ∧
    decode par0 ⟨.cmd, 3, (0xFFFFFFFF#32).toNat % 8⟩ = .ok .cmdReserved7 := ⟨rfl, by decide⟩

theorem witness_StepRunsDecoded_unit :
    ∃ u t, fetchUnit .extsz (((zeros (some .d16) 4).setPort [.recognise .extsz]).setPort []) = .ok u t ∧
      decide (decode par0 u = .ok (.extsz 0)) = true :=
  ok_exists _ _ _ (by decide +kernel)

theorem witness_StepRunsDecoded_invoke :
    (State.reset.setPort [.invoke .srcMark]).port = .invoke .srcMark :: [] ∧ State.reset.seq.ST = .idle := ⟨rfl, rfl⟩

theorem witness_SteppedIsWhole : p1.seq.ST = .idle ∧ p1.seq.BUSY = false := ⟨rfl, rfl⟩

theorem witness_StepKeepsInv : (zeros none 8).Inv ∧ step (zeros none 8) = .next (zeros none 8) := ⟨inv_zeros, rfl⟩

theorem witness_UnusedStateNeverEntered :
    State.reset.seq.ST ≠ .unused ∧ exec .nop State.reset = .next State.reset ∧
    step State.reset = .next State.reset ∧
    (State.reset.setSeq ⟨.unused, true, false, 0, 0, 0⟩).seq.ST = .unused ∧
    (State.reset.setSeq ⟨.unused, true, false, 0, 0, 0⟩).port = [] := ⟨by decide, rfl, rfl, rfl, rfl⟩

/-- Serves StreamNeverWritten, TraceOnlyGrows, HostRegistersKept and CrossFrameWriters. -/
theorem witness_writers :
    exec .srcMark p1 = .next (p1.setSrc { p1.src with MARKPOS := p1.src.POS, MARK_V := true }) ∧
    step State.reset = .next State.reset ∧ Instr.srcMark ≠ .probe ∧ Instr.srcMark ≠ .probescan ∧
    Instr.srcMark ≠ .readFrame ∧ Instr.srcMark ≠ .metadata ∧ Instr.srcMark ≠ .timecode ∧
    Instr.srcMark ≠ .continuityInvalidate ∧ (∀ b, Instr.srcMark ≠ .tcblock b) ∧
    (∀ idx df, Instr.srcMark ≠ .continuityUpdate idx df) ∧ Instr.srcMark ≠ .progmeta ∧
    (∀ p c b, Instr.srcMark ≠ .pmeta p c b) ∧ (∀ p, Instr.srcMark ≠ .nul p) ∧ (∀ p, Instr.srcMark ≠ .stx p) ∧
    (∀ p, Instr.srcMark ≠ .etx p) ∧ (∀ p c, Instr.srcMark ≠ .print p c) ∧ (∀ p c, Instr.srcMark ≠ .charOther p c) ∧
    (∀ p c, Instr.srcMark ≠ .descchar p c) := by
  refine ⟨rfl, rfl, ?_, ?_, ?_, ?_, ?_, ?_, ?_, ?_, ?_, ?_, ?_, ?_, ?_, ?_, ?_, ?_⟩ <;> intros <;> intro h <;> cases h

theorem witness_BusyIgnoresCommand : (State.reset.setSeq ⟨.sync, true, false, 0, 0, 0⟩).seq.BUSY = true := rfl

/-- Serves ClearResets and CommandsEnd. -/
theorem witness_idle : State.reset.seq.BUSY = false ∧ p1.seq.BUSY = false ∧ p1.par.Ok := ⟨rfl, rfl, ok_default⟩

theorem witness_AlignFindsByte :
    (start none [0, 0x87200000]).src.POS ≤ (start none [0, 0x87200000]).src.MEM.len ∧
    ((zeros none 8).setSrc { (zeros none 8).src with POS := 8 }).src.POS ≤ (zeros none 8).src.MEM.len ∧
    (zeros none 8).seq.BUSY = false := by decide +kernel

/-- P1: no key, not a low frame rate. -/
theorem witness_ReadFrameCompletes :
    let m := (p1.atSubsegs .d16).consume .d16 4
    p1.seq.BUSY = false ∧ p1.par.Ok ∧ p1.BurstAhead .d16 ∧
    (((p1.afterPreamble .d16).afterBurst).afterSync .d16).HeaderAhead .d16 ∧
    SubWalk .d16 true (p1.atSubsegs .d16) m ∧ m.PadOk .d16 m.fr.MDSIZE.toNat ∧
    (m.fr.LFR = true → SubWalk .d16 false (m.atExtension .d16) m ∧ m.PadOk .d16 m.fr.EXTSZ.toNat) ∧
    (((m.atMeter m .d16).afterRegionStart .d16 false).afterMeters .d16).PadOk .d16 (m.atMeter m .d16).fr.METSZ.toNat ∧
    ((m.atMeter m .d16).afterMeter .d16).br.BYTECNT ≤ ((m.atMeter m .d16).afterMeter .d16).expectedBytes .d16 ∧
    (((m.atMeter m .d16).afterMeter .d16).afterComplete .d16).src.POS ≤ p1.src.MEM.len :=
  ⟨rfl, ok_default, ⟨by decide +kernel, by decide +kernel, by decide +kernel, by decide +kernel, by decide +kernel⟩,
    ⟨by decide +kernel, by decide +kernel, by decide +kernel⟩, .done _ (by decide +kernel), .inr (by decide +kernel),
    fun h => absurd h (by decide +kernel), .inr (by decide +kernel), by decide +kernel, by decide +kernel⟩

/-- A low frame rate with keys in two-stream mode: configuration 0, frame-rate code 1, everything after it zero. -/
def lowRate : State :=
  let s := start none [0xF8720000, 0x4E1F0000, 0x003C0000, 0x00400000, 0x078F0000, 0x00000000, 0x00000000, 0x01000000]
  (s.setSrc { s.src with MEM := ⟨400, s.src.MEM.cells⟩ }).setCfg { s.cfg with STREAMS2 := true }

theorem witness_ReadFrameCompletes_low :
    let m := (lowRate.atSubsegs .d16).consume .d16 4
    let x := (m.atExtension .d16).consume .d16 4
    lowRate.seq.BUSY = false ∧ lowRate.par.Ok ∧ lowRate.BurstAhead .d16 ∧
    (((lowRate.afterPreamble .d16).afterBurst).afterSync .d16).HeaderAhead .d16 ∧
    SubWalk .d16 true (lowRate.atSubsegs .d16) m ∧ m.PadOk .d16 m.fr.MDSIZE.toNat ∧ m.fr.LFR = true ∧
    SubWalk .d16 false (m.atExtension .d16) x ∧ x.PadOk .d16 x.fr.EXTSZ.toNat ∧
    (((m.atMeter x .d16).afterRegionStart .d16 false).afterMeters .d16).PadOk .d16 (m.atMeter x .d16).fr.METSZ.toNat ∧
    ((m.atMeter x .d16).afterMeter .d16).br.BYTECNT ≤ ((m.atMeter x .d16).afterMeter .d16).expectedBytes .d16 ∧
    (((m.atMeter x .d16).afterMeter .d16).afterComplete .d16).src.POS ≤ lowRate.src.MEM.len :=
  ⟨rfl, ok_default, ⟨by decide +kernel, by decide +kernel, by decide +kernel, by decide +kernel, by decide +kernel⟩,
    ⟨by decide +kernel, by decide +kernel, by decide +kernel⟩, .done _ (by decide +kernel), .inr (by decide +kernel),
    by decide +kernel, .done _ (by decide +kernel), .inr (by decide +kernel), .inr (by decide +kernel), by decide +kernel,
    by decide +kernel⟩

theorem witness_GetbitsDelivers :
    (zeros (some .d16) 8).Ready .d16 ∧ ((zeros (some .d16) 8).consume .d16 1).src.POS ≤ 8 ∧
    ((zeros (some .d16) 8).consume .d16 32).src.POS ≤ 8 := ⟨ready_zeros _ _, by decide +kernel⟩

theorem witness_GetbitsIsSerial : ∃ v t, getbitsOp 32 (start (some .d24) [0xABCDEF00, 0x12345600]) = .ok v t ∧
    (v == 0xABCDEF12#32) = true :=
  ok_exists _ _ (fun v _ => v == 0xABCDEF12#32) (by decide +kernel)

theorem witness_GetbitsTraps :
    (zeros (some .d16) 4).Ready .d16 ∧ (zeros (some .d16) 4).src.POS ≤ (zeros (some .d16) 4).src.MEM.len ∧
    (zeros (some .d16) 4).src.MEM.len < ((zeros (some .d16) 4).consume .d16 17).src.POS ∧
    ¬(1 ≤ 0 ∧ 0 ≤ 32) ∧ ¬(1 ≤ 33 ∧ 33 ≤ 32) ∧ State.reset.br.DEPTH = none ∧
    55 < (State.reset.setBr ⟨some .d16, 0, 40, 0, false, 0, 0, 0⟩).br.RESCNT + Depth.d16.bits :=
  ⟨ready_zeros _ _, by decide +kernel⟩

theorem witness_SkipConsumes :
    (zeros (some .d20) 12).Ready .d20 ∧ ((zeros (some .d20) 12).consume .d20 0).src.POS ≤ 12 ∧
    ((zeros (some .d20) 12).consume .d20 60).src.POS ≤ 12 := ⟨ready_zeros _ _, by decide +kernel⟩

theorem witness_PullwordResult :
    let s := (zeros (some .d24) 4).setBr ⟨some .d24, 0, 31, 0, false, 0, 0, 0⟩
    s.br.DEPTH = some .d24 ∧ s.br.RESCNT + Depth.d24.bits ≤ 55 ∧ s.src.POS + s.sampleBytes ≤ s.src.MEM.len ∧
    (zeros (some .d24) 3).src.MEM.len < (zeros (some .d24) 3).src.POS + (zeros (some .d24) 3).sampleBytes := by
  decide +kernel

theorem witness_CrcFoldIsRemainder :
    (zeros (some .d16) 0).br.DEPTH = some .d16 ∧ (0xFFFF#24 : Sample).toNat < 2 ^ Depth.d16.bits := by decide +kernel

theorem witness_CodewordCloses : (0x199D#24 : Sample).toNat < 2 ^ 16 ∧ crcFold .d16 0x4444 0x199D = 0 := by
  decide +kernel

theorem witness_SingleBitDetected :
    15 < Depth.d16.bits ∧ (0x2222#24 : Sample).toNat < 2 ^ Depth.d16.bits ∧
    (∀ w ∈ [(0x1111#24 : Sample)], w.toNat < 2 ^ Depth.d16.bits) ∧
    (∀ w ∈ [(0x199D#24 : Sample)], w.toNat < 2 ^ Depth.d16.bits) ∧
    crcOf .d16 ([0x1111#24] ++ 0x2222#24 :: [0x199D#24]) = 0 := by
  have h1 : crcFold .d16 0 0x1111#24 = 0x1111 := by decide +kernel
  have h2 : crcFold .d16 0x1111 0x2222#24 = 0x4444 := by decide +kernel
  have h3 : crcFold .d16 0x4444 0x199D#24 = 0 := by decide +kernel
  refine ⟨by decide, by decide, by simp [Depth.bits], by simp [Depth.bits], ?_⟩
  simp only [crcOf, List.cons_append, List.nil_append, List.foldl_cons, List.foldl_nil, h1, h2, h3]

theorem witness_RegionStartResult :
    let s := (zeros (some .d20) 4).setBr ⟨some .d20, 0, 0, 0x11111, true, 3, 77, 0⟩
    s.Ready .d20 ∧ (s.afterRegionStart .d20 true).src.POS ≤ s.src.MEM.len ∧
    (s.afterRegionStart .d20 false).src.POS ≤ s.src.MEM.len ∧
    ((zeros (some .d20) 0).afterRegionStart .d20 true).src.POS ≤ 0 := ⟨⟨rfl, by decide⟩, by decide +kernel⟩

theorem witness_SegmentEndResult :
    let s := (zeros (some .d16) 4).setBr ⟨some .d16, 0, 6, 0, false, 0, 250, 4⟩
    let r := { s with par := strict }
    s.Ready .d16 ∧ r.Ready .d16 ∧ s.PadOk .d16 (16#10).toNat ∧ s.PadOk .d16 (15#10).toNat ∧
    (s.afterPad .d16 16 .meter).src.POS ≤ s.src.MEM.len ∧ (s.afterPad .d16 15 .meter).src.POS ≤ s.src.MEM.len ∧
    r.par.segOverrunFaults = true ∧ (15#10).toNat * Depth.d16.bits < r.br.BITCNT ∧
    (s.afterCrc .d16 .meter).src.POS ≤ s.src.MEM.len :=
  ⟨⟨rfl, by decide⟩, ⟨rfl, by decide⟩, .inl (by decide +kernel), .inr rfl, by decide +kernel⟩

theorem witness_BurstPatterns :
    (State.reset.setPd (some .d16)).pd = some .d16 ∧ (State.reset.setPd (some .d20)).pd = some .d20 ∧
    (State.reset.setPd (some .d24)).pd = some .d24 ∧ State.reset.pd ≠ some .d16 ∧ State.reset.pd ≠ some .d20 ∧
    State.reset.pd ≠ some .d24 := by decide

theorem witness_PreambleSetsDepth :
    let s := start none [0x96F87200, 0xA54E1F00]
    s.wordAt 0 = Depth.d24.preamble1 ∧ s.wordAt 1 = Depth.d24.preamble2 ∧
    (s.afterPreamble .d24).src.POS ≤ s.src.MEM.len := by decide +kernel

theorem witness_BurstinfoAccepts :
    let s := ((start (some .d16) [0x003C0000, 0x001E0000]).setCfg { State.reset.cfg with STREAMS2 := true }).setSeq
      ⟨.burstinfo, true, false, 0, 0, 0⟩
    let r := (start none [0x003C0000, 0x001F0000]).setSeq ⟨.burstinfo, true, false, 0, 0, 0⟩
    s.seq.ST = .burstinfo ∧ s.port = [] ∧ s.withBurst.src.POS ≤ s.src.MEM.len ∧
    s.afterBurst.src.POS ≤ s.src.MEM.len ∧ s.withBurst.bi.BI_DTYPE = 28 ∧ s.cfg.STREAMS2 = true ∧
    s.br.DEPTH = some .d16 ∧ s.withBurst.bi.BI_BITLEN.toNat / Depth.d16.bits % 2 = 0 ∧
    r.seq.ST = .burstinfo ∧ r.port = [] ∧ r.afterBurst.src.POS ≤ r.src.MEM.len ∧ r.withBurst.bi.BI_DTYPE = 28 ∧
    r.cfg.STREAMS2 = false := by decide +kernel

theorem witness_BurstinfoAccepts_pass :
    let s := (State.reset.setBi { State.reset.bi with BI_DTYPE := 28, BI_BITLEN := 480 }).setCfg
      { State.reset.cfg with STREAMS2 := true }
    let r := s.setBr { s.br with DEPTH := some .d24 }
    s.bi.BI_DTYPE = 28 ∧ (s.setCfg State.reset.cfg).cfg.STREAMS2 = false ∧ r.bi.BI_DTYPE = 28 ∧ r.cfg.STREAMS2 = true ∧
    r.br.DEPTH = some .d24 ∧ r.bi.BI_BITLEN.toNat / Depth.d24.bits % 2 = 0 := by decide

theorem witness_BurstTraps_short :
    (zeros none 3).src.MEM.len < (zeros none 3).src.POS + (zeros none 3).sampleBytes ∧
    (zeros none 7).src.POS + (zeros none 7).sampleBytes ≤ (zeros none 7).src.MEM.len ∧
    preamble1Depth ((zeros none 7).wordAt 0) = none ∧
    (zeros none 7).src.MEM.len < (zeros none 7).src.POS + 2 * (zeros none 7).sampleBytes := by decide +kernel

theorem witness_BurstTraps_type :
    let s := (start none [0x001B0000, 0x001E0000]).setSeq ⟨.burstinfo, true, false, 0, 0, 0⟩
    s.seq.ST = .burstinfo ∧ s.port = [] ∧ s.src.POS + 2 * s.sampleBytes ≤ s.src.MEM.len ∧
    s.withBurst.bi.BI_DTYPE ≠ 28 := by decide +kernel

theorem witness_BurstTraps_readFrame :
    let s := start none [0xF8720000, 0x4E1F0000, 0x001B0000, 0x001E0000]
    let r := (start none [0xF8720000, 0x4E1F0000, 0x003C0000, 0x001F0000]).setCfg { State.reset.cfg with STREAMS2 := true }
    s.seq.BUSY = false ∧ s.wordAt 0 = Depth.d16.preamble1 ∧ s.wordAt 1 = Depth.d16.preamble2 ∧
    s.src.POS + 4 * s.sampleBytes ≤ s.src.MEM.len ∧ ((s.afterPreamble .d16).withBurst).bi.BI_DTYPE ≠ 28 ∧
    r.seq.BUSY = false ∧ r.wordAt 0 = Depth.d16.preamble1 ∧ r.wordAt 1 = Depth.d16.preamble2 ∧
    r.src.POS + 4 * r.sampleBytes ≤ r.src.MEM.len ∧ ((r.afterPreamble .d16).withBurst).bi.BI_DTYPE = 28 ∧
    r.cfg.STREAMS2 = true ∧ ((r.afterPreamble .d16).withBurst).bi.BI_BITLEN.toNat / Depth.d16.bits % 2 = 1 := by
  decide +kernel

theorem witness_BurstTraps_word2 :
    let s := start none [0x6F872000]
    let r := start none [0x6F872000, 0x4E1F0000]
    preamble1Depth (s.wordAt 0) = some .d20 ∧ s.src.POS + s.sampleBytes ≤ s.src.MEM.len ∧
    s.src.MEM.len < s.src.POS + 2 * s.sampleBytes ∧ preamble1Depth (r.wordAt 0) = some .d20 ∧
    r.src.POS + 2 * r.sampleBytes ≤ r.src.MEM.len ∧ r.wordAt 1 ≠ Depth.d20.preamble2 := by decide +kernel

theorem witness_BurstTraps_odd :
    let s := ((start (some .d16) [0x003C0000, 0x001F0000]).setCfg { State.reset.cfg with STREAMS2 := true }).setSeq
      ⟨.burstinfo, true, false, 0, 0, 0⟩
    let r := s.setBr { s.br with DEPTH := none }
    s.seq.ST = .burstinfo ∧ s.port = [] ∧ s.src.POS + 2 * s.sampleBytes ≤ s.src.MEM.len ∧
    s.withBurst.bi.BI_DTYPE = 28 ∧ s.cfg.STREAMS2 = true ∧ s.br.DEPTH = some .d16 ∧
    s.withBurst.bi.BI_BITLEN.toNat / Depth.d16.bits % 2 = 1 ∧ r.seq.ST = .burstinfo ∧ r.port = [] ∧
    r.src.POS + 2 * r.sampleBytes ≤ r.src.MEM.len ∧ r.withBurst.bi.BI_DTYPE = 28 ∧ r.cfg.STREAMS2 = true ∧
    r.br.DEPTH = none := by decide +kernel

theorem witness_ThreeByteWordsNeverMatch :
    (p1.setCfg { State.reset.cfg with PACK3 := true }).cfg.PACK3 = true := rfl

/-- V-PROBE-5 (41_burst R166's example): a zero word, a failed candidate, the preamble. -/
theorem witness_ProbeFinds :
    let s := start none [0, 0xDEADBEEF, 0xF8720000, 0x4E1F0000]
    ∃ t, ProbeWalk s 0 t 8 ∧ 8 < t.cfg.PROBE_WINDOW.toNat ∧ t.wordAt 0 = Depth.d16.preamble1 ∧
      t.wordAt 1 = Depth.d16.preamble2 ∧ t.src.POS + 2 * t.sampleBytes ≤ t.src.MEM.len ∧ s.seq.BUSY = false :=
  ⟨_, .zero _ _ _ _ (by decide +kernel) (by decide +kernel) (by decide +kernel)
    (.failed _ _ _ _ (by decide +kernel) (by decide +kernel) ⟨by decide +kernel, .inl (by decide +kernel)⟩ (.here _ _)),
    by decide +kernel, by decide +kernel, by decide +kernel, by decide +kernel, rfl⟩

/-- V-PROBE-4: two streams; a candidate whose second word is another depth's is stepped past by two words. -/
theorem witness_ProbeFinds_streams :
    let s := (start none [0x6F872000, 0x4E1F0000, 0x96F87200, 0xA54E1F00]).setCfg { State.reset.cfg with STREAMS2 := true }
    ∃ t, ProbeWalk s 0 t 8 ∧ 8 < t.cfg.PROBE_WINDOW.toNat ∧ t.wordAt 0 = Depth.d24.preamble1 ∧
      t.wordAt 1 = Depth.d24.preamble2 ∧ t.src.POS + 2 * t.sampleBytes ≤ t.src.MEM.len ∧ s.seq.BUSY = false :=
  ⟨_, .failed _ _ _ _ (by decide +kernel) (by decide +kernel)
    ⟨by decide +kernel, .inr ⟨.d20, by decide +kernel, by decide +kernel, by decide +kernel⟩⟩ (.here _ _),
    by decide +kernel, by decide +kernel, by decide +kernel, by decide +kernel, rfl⟩

/-- The window ends after a failed candidate; the window is empty. -/
theorem witness_ProbeGivesUp_window :
    let s := (start none [0xDEADBEEF, 0]).setCfg { State.reset.cfg with PROBE_WINDOW := 4 }
    let r := (zeros none 40).setCfg { State.reset.cfg with PROBE_WINDOW := 0 }
    (∃ t, ProbeWalk s 0 t 4 ∧ t.cfg.PROBE_WINDOW.toNat ≤ 4) ∧ ProbeWalk r 0 r 0 ∧ r.cfg.PROBE_WINDOW.toNat ≤ 0 ∧
    s.seq.BUSY = false :=
  ⟨⟨_, .failed _ _ _ _ (by decide +kernel) (by decide +kernel) ⟨by decide +kernel, .inl (by decide +kernel)⟩ (.here _ _),
    by decide +kernel⟩, .here _ _, by decide +kernel, rfl⟩

theorem witness_ProbeGivesUp_end :
    let s := start none [0xDEADBEEF]
    ∃ t, ProbeWalk s 0 t 4 ∧ 4 < t.cfg.PROBE_WINDOW.toNat ∧ t.src.MEM.len < t.src.POS + t.sampleBytes :=
  ⟨_, .failed _ _ _ _ (by decide +kernel) (by decide +kernel) ⟨by decide +kernel, .inl (by decide +kernel)⟩ (.here _ _),
    by decide +kernel, by decide +kernel⟩

/-- The last word of the stream is a preamble word, or with two streams a failed candidate. -/
theorem witness_ProbeGivesUp_last :
    let s := start none [0xF8720000]
    let r := (start none [0xDEADBEEF]).setCfg { State.reset.cfg with STREAMS2 := true }
    ProbeWalk s 0 s 0 ∧ 0 < s.cfg.PROBE_WINDOW.toNat ∧ s.src.POS + s.sampleBytes ≤ s.src.MEM.len ∧
    s.src.MEM.len < s.src.POS + 2 * s.sampleBytes ∧ preamble1Depth (s.wordAt 0) = some .d16 ∧
    ProbeWalk r 0 r 0 ∧ 0 < r.cfg.PROBE_WINDOW.toNat ∧ r.src.POS + r.sampleBytes ≤ r.src.MEM.len ∧
    r.src.MEM.len < r.src.POS + 2 * r.sampleBytes ∧ preamble1Depth (r.wordAt 0) = none ∧ r.wordAt 0 ≠ 0 ∧
    r.cfg.STREAMS2 = true :=
  ⟨.here _ _, by decide +kernel, by decide +kernel, by decide +kernel, by decide +kernel, .here _ _, by decide +kernel⟩

theorem witness_SyncResult :
    let s := start (some .d20) [0x0788F000, 0x12345000]
    let r := start (some .d16) [0x078C0000]
    s.Ready .d20 ∧ r.Ready .d16 ∧ (s.afterSync .d20).src.POS ≤ s.src.MEM.len ∧
    syncMatches .d20 (BitVec.ofNat 24 (s.field .d20 0 Depth.d20.bits)) = true ∧
    (r.afterSync .d16).src.POS ≤ r.src.MEM.len ∧
    syncMatches .d16 (BitVec.ofNat 24 (r.field .d16 0 Depth.d16.bits)) = false :=
  ⟨⟨rfl, by decide⟩, ⟨rfl, by decide⟩, by decide +kernel⟩

/-- At each depth, with and without a key to read. -/
theorem witness_SyncResult_pattern :
    ∀ d ∈ [Depth.d16, .d20, .d24], (zeros (some d) 4).Ready d ∧ ∀ k ∈ [0#1, 1#1],
      (((zeros (some d) 4).setBr { (zeros (some d) 4).br with KEYP := k.getLsbD 0 }).afterRegionStart d true).src.POS ≤
        (zeros (some d) 4).src.MEM.len := by
  intro d hd
  refine ⟨ready_zeros _ _, ?_⟩
  revert d
  decide +kernel

theorem witness_MetadataResult :
    let s := start (some .d16) [0x00410000, 0x26000000, 0x01000000, 0x02000000, 0x03000000, 0x04000000]
    s.Ready .d16 ∧ s.par.Ok ∧ s.HeaderAhead .d16 ∧ (s.afterMetadata .d16).src.POS ≤ s.src.MEM.len ∧
    ((zeros (some .d16) 16).afterTimecodeBlock .d16).src.POS ≤ (zeros (some .d16) 16).src.MEM.len ∧
    s.par.tcLayout = State.reset.par.tcLayout :=
  ⟨⟨rfl, by decide⟩, ok_default, ⟨by decide +kernel, by decide +kernel, by decide +kernel⟩, by decide +kernel⟩

/-- V-ERR-1, V-ERR-2 and the illegal code: program-configuration codes 24 and 63, frame-rate codes 0 and 9. -/
theorem witness_MetadataResult_traps :
    let s := start (some .d16) [0x00010000, 0x86000000]
    let r := start (some .d16) [0x00030000, 0xF6000000]
    let u := start (some .d16) [0x00010000, 0x20000000]
    let v := start (some .d16) [0x00010000, 0x29000000]
    s.Ready .d16 ∧ s.headerPcfg .d16 = 24 ∧ (s.consume .d16 20).src.POS ≤ s.src.MEM.len ∧
    r.Ready .d16 ∧ r.headerPcfg .d16 = 63 ∧ (r.consume .d16 20).src.POS ≤ r.src.MEM.len ∧
    u.Ready .d16 ∧ (u.headerPcfg .d16).toNat ≤ 23 ∧ u.headerFrc .d16 = 0 ∧ (u.consume .d16 24).src.POS ≤ u.src.MEM.len ∧
    v.Ready .d16 ∧ (v.headerPcfg .d16).toNat ≤ 23 ∧ 9 ≤ (v.headerFrc .d16).toNat ∧
    (v.consume .d16 24).src.POS ≤ v.src.MEM.len :=
  ⟨⟨rfl, by decide⟩, by decide +kernel, by decide +kernel, ⟨rfl, by decide⟩, by decide +kernel, by decide +kernel,
    ⟨rfl, by decide⟩, by decide +kernel, by decide +kernel, by decide +kernel, ⟨rfl, by decide⟩, by decide +kernel,
    by decide +kernel, by decide +kernel⟩

/-- Serves CodeClasses and ProgramConfigurations. -/
theorem witness_codes :
    (23#6).toNat < 24 ∧ (23#6).toNat ≤ 23 ∧ 24 ≤ (24#6).toNat ∧ (62#6).toNat ≤ 62 ∧ 1 ≤ (1#4).toNat ∧ (5#4).toNat ≤ 5 ∧
    6 ≤ (6#4).toNat ∧ (8#4).toNat ≤ 8 ∧ 9 ≤ (9#4).toNat ∧ errKind (.pcfgIllegal 63) = .configuration ∧
    State.reset.par.Ok :=
  ⟨by decide, by decide, by decide, by decide, by decide, by decide, by decide, by decide, by decide, by decide, ok_default⟩

theorem witness_HeaderStates :
    let s := (zeros (some .d16) 400).setFr { State.reset.fr with NCH := 8, NPROG := 8, LFR := true }
    s.Ready .d16 ∧ s.fr.NCH.toNat ≤ 8 ∧ s.fr.NPROG.toNat ≤ 8 ∧ (s.afterFramedist .d16).src.POS ≤ s.src.MEM.len ∧
    (s.afterProgmeta .d16).src.POS ≤ s.src.MEM.len ∧ (s.afterChanmeta .d16).src.POS ≤ s.src.MEM.len :=
  ⟨⟨rfl, by decide⟩, by decide +kernel⟩

theorem witness_CharacterPatterns :
    isPrintable 0x20 = true ∧ isPrintable 0x7E = true ∧ (Instr.charOther 0 0x1F).wellFormed par0 = true ∧
    (Instr.charOther 0 0x7F).wellFormed par0 = true := by decide

theorem witness_TextRunPublished : ∀ c ∈ [(0x48#8 : BitVec 8), 0x69#8], isPrintable c = true := by decide

theorem witness_Ac3Patterns :
    (zeros (some .d16) 200).Ready .d16 ∧
    ((zeros (some .d16) 200).consume .d16 (8 * (63#6).toNat)).src.POS ≤ (zeros (some .d16) 200).src.MEM.len ∧
    ((zeros (some .d16) 200).afterAddbsi .d16 true 0).src.POS ≤ (zeros (some .d16) 200).src.MEM.len :=
  ⟨ready_zeros _ _, by decide +kernel⟩

theorem witness_Ac3InfoResult :
    let s := (zeros (some .d16) 400).setFr { State.reset.fr with NPROG := 2 }
    s.Ready .d16 ∧ s.par.Ok ∧ (s.afterAc3info .d16 true true).src.POS ≤ s.src.MEM.len ∧
    (s.afterAc3info .d16 false false).src.POS ≤ s.src.MEM.len ∧
    (∀ x ∈ ([(.bsmod, 3)] : Layout Ac3Field), x.1 ≠ .datarate) := ⟨⟨rfl, by decide⟩, ok_default, by decide +kernel⟩

theorem witness_SubBlockResult :
    let s := (zeros (some .d16) 400).setFr { State.reset.fr with NPROG := 1 }
    s.Ready .d16 ∧ s.par.Ok ∧ (s.afterSubBlock .d16 true 1 110).src.POS ≤ s.src.MEM.len ∧
    (s.afterSubBlock .d16 true 2 40).src.POS ≤ s.src.MEM.len ∧
    (s.consume .d16 (40#12).toNat).src.POS ≤ s.src.MEM.len := ⟨⟨rfl, by decide⟩, ok_default, by decide +kernel⟩

/-- One skipped sub-block of sixteen bits, then the end of the loop. -/
theorem witness_SubsegLoopWalks :
    let s := start (some .d16) [0x30100000, 0xFFFF0000, 0x00000000]
    let t := ((s.consume .d16 16).afterSubBlock .d16 true (BitVec.ofNat 4 (s.field .d16 0 4))
      (BitVec.ofNat 12 (s.field .d16 4 12)))
    s.Ready .d16 ∧ s.par.Ok ∧ SubWalk .d16 true s (t.consume .d16 4) ∧ (t.consume .d16 4).src.POS ≤ s.src.MEM.len :=
  ⟨⟨rfl, by decide⟩, ok_default, .block _ _ (by decide +kernel) (.done _ (by decide +kernel)), by decide +kernel⟩

theorem witness_SegmentStates :
    let s := zeros (some .d16) 40
    let t := s.consume .d16 4
    let x := (s.afterRegionStart .d16 false).consume .d16 4
    s.Ready .d16 ∧ s.par.Ok ∧ SubWalk .d16 true s t ∧ t.PadOk .d16 t.fr.MDSIZE.toNat ∧
    (t.afterSegment .d16 t.fr.MDSIZE.toNat .metadata).src.POS ≤ s.src.MEM.len ∧
    SubWalk .d16 false (s.afterRegionStart .d16 false) x ∧ x.PadOk .d16 x.fr.EXTSZ.toNat ∧
    (x.afterSegment .d16 x.fr.EXTSZ.toNat .extMeta).src.POS ≤ s.src.MEM.len :=
  ⟨ready_zeros _ _, ok_default, .done _ (by decide +kernel), .inr rfl, by decide +kernel, .done _ (by decide +kernel),
    .inr rfl, by decide +kernel⟩

/-- An overrun under the policy `fault`: size 0, four bits used. -/
theorem witness_SegmentStates_fault :
    let s := { zeros (some .d16) 40 with par := strict }
    let t := s.consume .d16 4
    let x := (s.afterRegionStart .d16 false).consume .d16 4
    s.Ready .d16 ∧ s.par.Ok ∧ SubWalk .d16 true s t ∧ ¬t.PadOk .d16 t.fr.MDSIZE.toNat ∧ t.src.POS ≤ s.src.MEM.len ∧
    SubWalk .d16 false (s.afterRegionStart .d16 false) x ∧ ¬x.PadOk .d16 x.fr.EXTSZ.toNat ∧ x.src.POS ≤ s.src.MEM.len :=
  ⟨⟨rfl, by decide⟩, ok_strict, .done _ (by decide +kernel), not_or.mpr (by decide +kernel), by decide +kernel,
    .done _ (by decide +kernel), not_or.mpr (by decide +kernel), by decide +kernel⟩

theorem witness_AudioAndMeter :
    let s := ((zeros (some .d16) 400).setFr { State.reset.fr with NCH := 8, METSZ := 10 }).setCh
      { State.reset.ch with CHSZ := .replicate 8 1 }
    let r := { s with par := strict, fr := { s.fr with METSZ := 0 } }
    s.Ready .d16 ∧ (s.afterHalf .d16 0 8 .audio0).src.POS ≤ s.src.MEM.len ∧
    (s.afterHalves .d16 .audio0 .audio1).src.POS ≤ s.src.MEM.len ∧
    (s.afterHalves .d16 .extAudio0 .extAudio1).src.POS ≤ s.src.MEM.len ∧ s.fr.NCH.toNat ≤ 8 ∧
    ((s.afterRegionStart .d16 false).afterMeters .d16).PadOk .d16 s.fr.METSZ.toNat ∧
    (s.afterMeter .d16).src.POS ≤ s.src.MEM.len ∧ r.Ready .d16 ∧ r.fr.NCH.toNat ≤ 8 ∧
    ¬((r.afterRegionStart .d16 false).afterMeters .d16).PadOk .d16 r.fr.METSZ.toNat ∧
    ((r.afterRegionStart .d16 false).afterMeters .d16).src.POS ≤ r.src.MEM.len :=
  ⟨⟨rfl, by decide⟩, by decide +kernel, by decide +kernel, by decide +kernel, by decide +kernel, .inr rfl,
    by decide +kernel, ⟨rfl, by decide⟩, by decide +kernel, not_or.mpr (by decide +kernel), by decide +kernel⟩

theorem witness_CompleteResult :
    let s := (zeros (some .d16) 8).setBi { State.reset.bi with BI_BITLEN := 32 }
    let r := s.setBr ⟨some .d16, 0, 0, 0, false, 0, 0, 12⟩
    let u := (zeros (some .d16) 7).setBi { State.reset.bi with BI_BITLEN := 32 }
    s.br.DEPTH = some .d16 ∧ s.br.BYTECNT ≤ s.expectedBytes .d16 ∧ (s.afterComplete .d16).src.POS ≤ s.src.MEM.len ∧
    r.br.DEPTH = some .d16 ∧ r.expectedBytes .d16 < r.br.BYTECNT ∧ u.br.DEPTH = some .d16 ∧
    u.br.BYTECNT ≤ u.expectedBytes .d16 ∧ u.src.POS ≤ u.src.MEM.len ∧
    u.src.MEM.len < (u.afterComplete .d16).src.POS := by decide +kernel

theorem witness_SourceCalls :
    let s := zeros none 4
    let r := zeros none 3
    s.src.POS + s.sampleBytes ≤ s.src.MEM.len ∧ r.src.MEM.len < r.src.POS + r.sampleBytes ∧
    (s.setSrc { s.src with MARK_V := true }).src.MARK_V = true ∧ s.src.MARK_V = false := by decide +kernel

theorem witness_HostPort :
    (State.reset.setPort [.write 3 7]).port = .write 3 7 :: [] ∧ State.reset.seq.BUSY = false ∧
    ((State.reset.setSeq ⟨.sync, true, false, 0, 0, 0⟩).setPort [.write 1 7]).port = .write 1 7 :: [] ∧
    (State.reset.setSeq ⟨.sync, true, false, 0, 0, 0⟩).seq.BUSY = true ∧
    (State.reset.setPort [.write 6 7]).port = .write 6 7 :: [] ∧ (State.reset.setPort [.read 0]).port = .read 0 :: [] ∧
    (State.reset.setPort [.read 6]).port = .read 6 :: [] ∧ (p1.setPort [.seek 136]).port = .seek 136 :: [] ∧
    136 ≤ p1.src.MEM.len ∧ p1.src.MEM.len < 137 :=
  ⟨rfl, rfl, rfl, rfl, rfl, rfl, rfl, rfl, by decide +kernel, by decide +kernel⟩

end Sys2Proof.Tests
end

section
/-! PROOF. What an operation can write, said once. `Write gs` is one assignment of the rules to one group of registers:
the groups that some operations leave alone are listed in `Group`, and an assignment to one of them needs its permission
in `gs`; an assignment to bounded registers keeps the bound. `Path gs` is a run of such assignments. Every operation is
shown to move the state along a path (`Moves`), whether it ends normally or early; what every step keeps is then read off
one assignment. -/

namespace Sys2Proof.Machine

/-! ### The bounds of the invariant, one group of registers at a time -/

/-- The residual buffer within its size, nothing above it (10_state R22, R23). -/
def BitReader.Bounded (b : BitReader) : Prop := b.RESCNT ≤ 55 ∧ b.RES.toNat < 2 ^ b.RESCNT

/-- The counts of channels and programs (10_state R33). -/
def FrameRegs.Bounded (f : FrameRegs) : Prop := f.NCH.toNat ≤ 8 ∧ f.NPROG.toNat ≤ 8

/-- The stream in canonical form, position and pending mark inside it (10_state R42). -/
structure Source.Bounded (x : Source) : Prop where
  mem : x.MEM.wf = true
  pos : x.POS ≤ x.MEM.len
  mark : x.MARK_V = true → x.MARKPOS ≤ x.MEM.len

/-- The text registers of all programs (10_state R40). -/
def TextBounded (par : Params) (x : Vector DescText 8) : Prop := ∀ p : Fin 8, (x[p]).Ok par.descMax

/-- The fields of all records of a file (10_state R37). -/
def RecsBounded (par : Params) (x : Vector Ac3Rec 8) : Prop :=
  ∀ (p : Fin 8) (f : Ac3Field), ((x[p]).get f).toNat < 2 ^ par.recordWidth f

/-- `BUSY` is 1 exactly while `ST` is not `IDLE` (10_state R30). -/
def Settled (s : State) : Prop := s.seq.BUSY = true ↔ s.seq.ST ≠ .idle

/-- The invariant without its clause about `BUSY`, which a command breaks while it begins. -/
structure Held (s : State) : Prop where
  br : s.br.Bounded
  fr : s.fr.Bounded
  src : s.src.Bounded
  used : s.seq.ST ≠ .unused
  text : TextBounded s.par s.desc
  recs : ∀ base, RecsBounded s.par (s.recs base)
  par : s.par.Ok

theorem inv_iff (s : State) : s.Inv ↔ Held s ∧ Settled s where
  mp h := ⟨⟨⟨h.rescnt, h.res⟩, ⟨h.nch, h.nprog⟩, ⟨h.mem, h.pos, h.mark⟩, h.used, h.text, h.records, h.par⟩, h.busy⟩
  mpr h := ⟨h.1.src.mem, h.1.src.pos, h.1.src.mark, h.1.br.1, h.1.br.2, h.1.fr.1, h.1.fr.2, h.2, h.1.used, h.1.text,
    h.1.recs, h.1.par⟩

/-! ### One assignment -/

/-- The groups of registers whose writers matter: `ST` and `STATUS`, the frame registers, timecode continuity, description
text, `PROBE_OFF`, and what only the host writes (the other configuration registers, the port). -/
inductive Group where
  | seq | frame | cont | desc | probe | host

/-- One assignment of the rules, writing no group but those permitted. -/
inductive Write (gs : Group → Prop) (s : State) : State → Prop where
  | br (x : BitReader) (h : s.br.Bounded → x.Bounded) : Write gs s (s.setBr x)
  | bi (x : BurstInfo) : Write gs s (s.setBi x)
  | seq (x : Sequencer) (hg : gs .seq) (h : s.seq.ST ≠ .unused → x.ST ≠ .unused) : Write gs s (s.setSeq x)
  | cfg (x : CfgRegs) (hg : gs .host) : Write gs s (s.setCfg x)
  | probeOff (off : BitVec 32) (hg : gs .probe) : Write gs s (s.setCfg { s.cfg with PROBE_OFF := off })
  | fr (x : FrameRegs) (hg : gs .frame) (h : s.fr.Bounded → x.Bounded) : Write gs s (s.setFr x)
  | tc (x : TcRegs) : Write gs s (s.setTc x)
  | ch (x : ChanArrays) : Write gs s (s.setCh x)
  | pg (x : ProgArrays) : Write gs s (s.setPg x)
  | recs (base : Bool) (x : Vector Ac3Rec 8) (h : RecsBounded s.par (s.recs base) → RecsBounded s.par x) :
      Write gs s (s.setRecs base x)
  | cont (x : Continuity) (hg : gs .cont) : Write gs s (s.setCont x)
  | desc (x : Vector DescText 8) (hg : gs .desc) (h : TextBounded s.par s.desc → TextBounded s.par x) :
      Write gs s (s.setDesc x)
  | src (x : Source) (hm : x.MEM = s.src.MEM) (h : s.src.Bounded → x.Bounded) : Write gs s (s.setSrc x)
  | ev (e : Event) : Write gs s (s.setEv (s.ev ++ [e]))
  | port (x : List Request) (hg : gs .host) : Write gs s (s.setPort x)
  | ret (x : Ret) : Write gs s (s.setRet x)
  | lastErr (x : Option (ErrVal × SeqState)) : Write gs s (s.setLastErr x)
  | pd (x : Option Depth) : Write gs s (s.setPd x)

section
variable {gs hs : Group → Prop} {s t u : State}

theorem Write.mono (hle : ∀ g, gs g → hs g) (h : Write gs s t) : Write hs s t := by
  cases h with
  | br x h => exact .br x h
  | bi x => exact .bi x
  | seq x hg h => exact .seq x (hle _ hg) h
  | cfg x hg => exact .cfg x (hle _ hg)
  | probeOff off hg => exact .probeOff off (hle _ hg)
  | fr x hg h => exact .fr x (hle _ hg) h
  | tc x => exact .tc x
  | ch x => exact .ch x
  | pg x => exact .pg x
  | recs base x h => exact .recs base x h
  | cont x hg => exact .cont x (hle _ hg)
  | desc x hg h => exact .desc x (hle _ hg) h
  | src x hm h => exact .src x hm h
  | ev e => exact .ev e
  | port x hg => exact .port x (hle _ hg)
  | ret x => exact .ret x
  | lastErr x => exact .lastErr x
  | pd x => exact .pd x

theorem setRecs_recs (s : State) (base b : Bool) (x : Vector Ac3Rec 8) :
    (s.setRecs base x).recs b = if b = base then x else s.recs b := by
  cases base <;> cases b <;> rfl

theorem Write.par_eq (h : Write gs s t) : t.par = s.par := by
  cases h with
  | recs base => cases base <;> rfl
  | _ => rfl

theorem Write.mem_eq (h : Write gs s t) : t.src.MEM = s.src.MEM := by
  cases h with
  | recs base => cases base <;> rfl
  | src x hm => exact hm
  | _ => rfl

theorem Write.seq_eq (hn : ¬gs .seq) (h : Write gs s t) : t.seq = s.seq := by
  cases h with
  | recs base => cases base <;> rfl
  | seq x hg => exact absurd hg hn
  | _ => rfl

theorem Write.fr_eq (hn : ¬gs .frame) (h : Write gs s t) : t.fr = s.fr := by
  cases h with
  | recs base => cases base <;> rfl
  | fr x hg => exact absurd hg hn
  | _ => rfl

theorem Write.cont_eq (hn : ¬gs .cont) (h : Write gs s t) : t.cont = s.cont := by
  cases h with
  | recs base => cases base <;> rfl
  | cont x hg => exact absurd hg hn
  | _ => rfl

theorem Write.desc_eq (hn : ¬gs .desc) (h : Write gs s t) : t.desc = s.desc := by
  cases h with
  | recs base => cases base <;> rfl
  | desc x hg => exact absurd hg hn
  | _ => rfl

theorem Write.port_eq (hn : ¬gs .host) (h : Write gs s t) : t.port = s.port := by
  cases h with
  | recs base => cases base <;> rfl
  | port x hg => exact absurd hg hn
  | _ => rfl

/-- The configuration registers with `PROBE_OFF` blanked, which are the host's alone (10_state R31, R32). -/
def CfgRegs.hostPart (c : CfgRegs) : CfgRegs := { c with PROBE_OFF := 0 }

theorem Write.hostPart_eq (hn : ¬gs .host) (h : Write gs s t) : t.cfg.hostPart = s.cfg.hostPart := by
  cases h with
  | recs base => cases base <;> rfl
  | cfg x hg => exact absurd hg hn
  | _ => rfl

theorem Write.probeOff_eq (hn : ¬gs .host) (hp : ¬gs .probe) (h : Write gs s t) :
    t.cfg.PROBE_OFF = s.cfg.PROBE_OFF := by
  cases h with
  | recs base => cases base <;> rfl
  | cfg x hg => exact absurd hg hn
  | probeOff x hg => exact absurd hg hp
  | _ => rfl

theorem Write.used (h : Write gs s t) (hs : s.seq.ST ≠ .unused) : t.seq.ST ≠ .unused := by
  cases h with
  | recs base => cases base <;> exact hs
  | seq x hg h => exact h hs
  | _ => exact hs

/-- An assignment appends at most one event (60_exceptions R290). -/
theorem Write.ev_append (h : Write gs s t) : ∃ es, t.ev = s.ev ++ es := by
  cases h with
  | recs base => exact ⟨[], by cases base <;> simp [State.setRecs]⟩
  | ev e => exact ⟨[e], rfl⟩
  | _ => exact ⟨[], (List.append_nil _).symm⟩

theorem Write.held (h : Write gs s t) (hs : Held s) : Held t := by
  cases h with
  | br x h => exact { hs with br := h hs.br }
  | seq x hg h => exact { hs with used := h hs.used }
  | fr x hg h => exact { hs with fr := h hs.fr }
  | desc x hg h => exact { hs with text := h hs.text }
  | src x hm h => exact { hs with src := h hs.src }
  | recs base x h =>
    have hr : ∀ b, RecsBounded s.par ((s.setRecs base x).recs b) := by
      intro b
      rw [setRecs_recs]
      split_ifs with hb
      · exact h (hs.recs base)
      · exact hs.recs b
    cases base <;> exact { hs with recs := hr }
  | _ => exact { hs with }

/-! ### Runs of assignments -/

/-- A run of assignments. -/
def Path (gs : Group → Prop) : State → State → Prop := Relation.ReflTransGen (Write gs)

theorem Path.refl (s : State) : Path gs s s := Relation.ReflTransGen.refl

theorem Path.single (h : Write gs s t) : Path gs s t := Relation.ReflTransGen.single h

theorem Path.tail (h : Path gs s t) (hw : Write gs t u) : Path gs s u := Relation.ReflTransGen.tail h hw

theorem Path.trans (h1 : Path gs s t) (h2 : Path gs t u) : Path gs s u := Relation.ReflTransGen.trans h1 h2

theorem Path.mono (hle : ∀ g, gs g → hs g) (h : Path gs s t) : Path hs s t :=
  Relation.ReflTransGen.mono (fun _ _ => Write.mono hle) _ _ h

/-- What every assignment leaves, a run leaves. -/
theorem Path.keeps {β : Type} {f : State → β} (hf : ∀ s t, Write gs s t → f t = f s) (h : Path gs s t) : f t = f s := by
  induction h with
  | refl => rfl
  | tail _ hw ih => rw [hf _ _ hw, ih]

/-- A predicate that every assignment preserves, a run preserves. -/
theorem Path.preserves {p : State → Prop} (hp : ∀ s t, Write gs s t → p s → p t) (h : Path gs s t) (hs : p s) : p t := by
  induction h with
  | refl => exact hs
  | tail _ hw ih => exact hp _ _ hw ih

theorem Path.par_eq (h : Path gs s t) : t.par = s.par := h.keeps fun _ _ => Write.par_eq
theorem Path.mem_eq (h : Path gs s t) : t.src.MEM = s.src.MEM := h.keeps (f := fun s => s.src.MEM) fun _ _ => Write.mem_eq
theorem Path.seq_eq (h : Path gs s t) (hn : ¬gs .seq) : t.seq = s.seq := h.keeps fun _ _ => Write.seq_eq hn
theorem Path.fr_eq (h : Path gs s t) (hn : ¬gs .frame) : t.fr = s.fr := h.keeps fun _ _ => Write.fr_eq hn
theorem Path.cont_eq (h : Path gs s t) (hn : ¬gs .cont) : t.cont = s.cont := h.keeps fun _ _ => Write.cont_eq hn
theorem Path.desc_eq (h : Path gs s t) (hn : ¬gs .desc) : t.desc = s.desc := h.keeps fun _ _ => Write.desc_eq hn
theorem Path.port_eq (h : Path gs s t) (hn : ¬gs .host) : t.port = s.port := h.keeps fun _ _ => Write.port_eq hn

theorem Path.hostPart_eq (h : Path gs s t) (hn : ¬gs .host) : t.cfg.hostPart = s.cfg.hostPart :=
  h.keeps (f := fun s => s.cfg.hostPart) fun _ _ => Write.hostPart_eq hn

theorem Path.probeOff_eq (h : Path gs s t) (hn : ¬gs .host) (hp : ¬gs .probe) : t.cfg.PROBE_OFF = s.cfg.PROBE_OFF :=
  h.keeps (f := fun s => s.cfg.PROBE_OFF) fun _ _ => Write.probeOff_eq hn hp

theorem Path.used (h : Path gs s t) : s.seq.ST ≠ .unused → t.seq.ST ≠ .unused :=
  h.preserves (p := fun s => s.seq.ST ≠ .unused) fun _ _ => Write.used

theorem Path.held (h : Path gs s t) : Held s → Held t := h.preserves fun _ _ => Write.held

theorem Path.ev_append (h : Path gs s t) : ∃ es, t.ev = s.ev ++ es := by
  induction h with
  | refl => exact ⟨[], (List.append_nil _).symm⟩
  | tail _ hw ih =>
    obtain ⟨es, he⟩ := ih
    obtain ⟨fs, hf⟩ := hw.ev_append
    exact ⟨es ++ fs, by rw [hf, he, List.append_assoc]⟩

end

/-! ### Operations that move along a path -/

/-- The state an operation ends in, normally or early: what it wrote stands (60_exceptions R284). -/
def endState {α : Type} : EStateM.Result Abort State α → State
  | .ok _ t => t
  | .error _ t => t

/-- Run in a state whose parameters are `P`, the operation makes only permitted assignments. -/
def Moves {α : Type} (gs : Group → Prop) (P : Params) (x : Op α) : Prop :=
  ∀ s : State, s.par = P → Path gs s (endState (x s))

section
variable {gs hs : Group → Prop} {P : Params} {α β : Type}

theorem Moves.mono (hle : ∀ g, gs g → hs g) {x : Op α} (h : Moves gs P x) : Moves hs P x :=
  fun s hs => (h s hs).mono hle

theorem Moves.ok {x : Op α} {s t : State} {a : α} (h : Moves gs s.par x) (hx : x s = .ok a t) : Path gs s t := by
  have hp := h s rfl
  rwa [hx] at hp

theorem Moves.error {x : Op α} {s t : State} {e : Abort} (h : Moves gs s.par x) (hx : x s = .error e t) :
    Path gs s t := by
  have hp := h s rfl
  rwa [hx] at hp

/-- An operation that changes nothing. -/
theorem Moves.of_still {x : Op α} (h : ∀ s, endState (x s) = s) : Moves gs P x := by
  intro s _
  rw [h s]
  exact .refl s

theorem Moves.pure (a : α) : Moves gs P (pure a : Op α) := .of_still fun _ => rfl
theorem Moves.raiseErr (e : ErrVal) : Moves gs P (raiseErr e : Op α) := .of_still fun _ => rfl
theorem Moves.refuse (r : Refusal) : Moves gs P (refuse r : Op α) := .of_still fun _ => rfl

theorem Moves.bind {x : Op α} {f : α → Op β} (hx : Moves gs P x) (hf : ∀ a, Moves gs P (f a)) :
    Moves gs P (x >>= f) := by
  intro s hs
  have h1 := hx s hs
  rw [op_bind]
  cases hr : x s with
  | ok a t =>
    rw [hr] at h1
    exact h1.trans (hf a t (h1.par_eq.trans hs))
  | error e t =>
    rw [hr] at h1
    exact h1

/-- The state is read first; its parameters are known. -/
theorem Moves.get_bind {f : State → Op β} (hf : ∀ s : State, s.par = P → Moves gs P (f s)) :
    Moves gs P ((get : Op State) >>= f) := by
  intro s hs
  rw [op_bind_ok (op_get s)]
  exact hf s hs s hs

theorem Moves.update {f : State → State} (h : ∀ s : State, s.par = P → Path gs s (f s)) : Moves gs P (update f) := h

theorem Moves.ite {c : Prop} [Decidable c] {x y : Op α} (hx : Moves gs P x) (hy : Moves gs P y) :
    Moves gs P (if c then x else y) := by
  split_ifs
  · exact hx
  · exact hy

theorem Moves.whenOp (c : Bool) {x : Op Unit} (hx : Moves gs P x) : Moves gs P (whenOp c x) := .ite hx (.pure ())

theorem Moves.forEach {f : α → Op Unit} (hf : ∀ a, Moves gs P (f a)) : ∀ as : List α, Moves gs P (forEach f as)
  | [] => .pure ()
  | a :: as => .bind (hf a) fun _ => .forEach hf as

theorem Moves.repeatOp {x : Op Unit} (hx : Moves gs P x) : ∀ n : Nat, Moves gs P (repeatOp x n)
  | 0 => .pure ()
  | n + 1 => .bind hx fun _ => .repeatOp hx n

theorem Moves.emitEvent (e : Event) : Moves gs P (emitEvent e) := fun _ _ => .single (.ev e)

theorem Moves.updTc (f : TcRegs → TcRegs) : Moves gs P (updTc f) := fun _ _ => .single (.tc _)
theorem Moves.updCh (f : ChanArrays → ChanArrays) : Moves gs P (updCh f) := fun _ _ => .single (.ch _)
theorem Moves.updPg (f : ProgArrays → ProgArrays) : Moves gs P (updPg f) := fun _ _ => .single (.pg _)

theorem Moves.updSrc {f : Source → Source} (hm : ∀ x, (f x).MEM = x.MEM) (h : ∀ x, x.Bounded → (f x).Bounded) :
    Moves gs P (updSrc f) := fun s _ => .single (.src _ (hm s.src) (h s.src))

theorem Moves.updBr {f : BitReader → BitReader} (h : ∀ b, b.Bounded → (f b).Bounded) : Moves gs P (updBr f) :=
  fun s _ => .single (.br _ (h s.br))

theorem Moves.updFr {f : FrameRegs → FrameRegs} (hg : gs .frame) (h : ∀ b, b.Bounded → (f b).Bounded) :
    Moves gs P (updFr f) := fun s _ => .single (.fr _ hg (h s.fr))

theorem Moves.updSeq {f : Sequencer → Sequencer} (hg : gs .seq) (h : ∀ q, q.ST ≠ .unused → (f q).ST ≠ .unused) :
    Moves gs P (updSeq f) := fun s _ => .single (.seq _ hg (h s.seq))

theorem Moves.updRec (base : Bool) (p : Fin 8) {f : Ac3Rec → Ac3Rec}
    (h : ∀ r, (∀ g, (r.get g).toNat < 2 ^ P.recordWidth g) → ∀ g, ((f r).get g).toNat < 2 ^ P.recordWidth g) :
    Moves gs P (updRec base p f) := by
  intro s hs
  subst hs
  refine .single (.recs base _ fun hb q g => ?_)
  by_cases hq : p = q
  · subst hq
    simpa [vset] using h _ (hb p) g
  · have hne : p.val ≠ q.val := fun hc => hq (Fin.ext hc)
    simpa [vset, Vector.getElem_set_ne, hne] using hb q g

theorem Moves.attempt {x : Op Unit} (hx : Moves gs P x) : Moves gs P (attempt x) := by
  intro s hs
  have h1 := hx s hs
  have he : endState (Machine.attempt x s) = endState (x s) := by
    rw [Machine.attempt]
    cases x s with
    | ok _ t => rfl
    | error e t =>
      cases e with
      | raised e => dsimp only; split_ifs <;> rfl
      | refused r => rfl
      | faulted f => rfl
  rwa [he]

end

end Sys2Proof.Machine
end

section
/-! PROOF. Every operation of the rules moves along a path that writes only the groups it may write. -/

namespace Sys2Proof.Machine

section
variable {gs : Group → Prop} {P : Params}

/-! ### The Sample Source -/

theorem srcReadWordOp_moves : Moves gs P srcReadWordOp := by
  intro s _
  rw [srcReadWordOp_run]
  split_ifs with hle
  · exact .single (.src _ rfl fun hb => ⟨hb.mem, hle, hb.mark⟩)
  · exact .refl s

theorem srcMarkOp_moves : Moves gs P srcMarkOp :=
  .updSrc (fun _ => rfl) fun _ hb => ⟨hb.mem, hb.pos, fun _ => hb.pos⟩

theorem srcResetOp_moves : Moves gs P srcResetOp := by
  intro s _
  rw [srcResetOp_run]
  split_ifs with hv
  · exact .single (.src _ rfl fun hb => ⟨hb.mem, hb.mark hv, hb.mark⟩)
  · exact .refl s

theorem alignPos_le (x : Source) : x.alignPos ≤ x.MEM.len := by
  rw [Source.alignPos]
  split_ifs with h
  · have := (x.MEM.skipZeros_spec x.POS (x.MEM.len - x.POS)).2.1
    omega
  · exact le_rfl

theorem srcAlignOp_moves : Moves gs P srcAlignOp :=
  .updSrc (fun _ => rfl) fun x hb => ⟨hb.mem, alignPos_le x, hb.mark⟩

theorem giveBack_moves (r : Ret) : Moves gs P (giveBack r) := fun _ _ => .single (.ret r)

/-! ### The bit reader -/

theorem needDepth_moves : Moves gs P needDepth := .of_still fun s => by
  cases h : s.br.DEPTH with
  | none => rw [needDepth_none h]; rfl
  | some d => rw [needDepth_some h]; rfl

/-- A pulled word keeps the residual buffer below its count, if it has room (40_bitreader R133). -/
theorem pull_bounded {b : BitReader} {d : Depth} (hroom : b.RESCNT + d.bits ≤ 55) (n : Nat) (w : Word)
    (hb : b.Bounded) : (b.pull d n w).Bounded := by
  refine ⟨hroom, ?_⟩
  have hs : (sampleOf d b.KEY w).toNat < 2 ^ (b.RESCNT + d.bits) :=
    (sampleOf_lt d b.KEY w).trans_le (Nat.pow_le_pow_right (by omega) (by omega))
  have hr : b.RES.toNat <<< d.bits < 2 ^ (b.RESCNT + d.bits) := by
    rw [Nat.shiftLeft_eq, pow_add]
    exact Nat.mul_lt_mul_of_pos_right hb.2 (by positivity)
  show ((b.RES <<< d.bits) ||| (sampleOf d b.KEY w).setWidth 64).toNat < 2 ^ (b.RESCNT + d.bits)
  rw [BitVec.toNat_or, BitVec.toNat_shiftLeft, BitVec.toNat_setWidth]
  exact Nat.or_lt_two_pow ((Nat.mod_le _ _).trans_lt hr) ((Nat.mod_le _ _).trans_lt hs)

theorem pullwordOp_moves : Moves gs P pullwordOp := by
  intro s _
  cases hd : s.br.DEPTH with
  | none =>
    rw [pullwordOp, op_bind_error (needDepth_none hd)]
    exact .refl s
  | some d =>
    by_cases hroom : s.br.RESCNT + d.bits ≤ 55
    · rw [pullwordOp_run hd hroom]
      split_ifs with hle
      · have hsrc : Path gs s (s.setSrc { s.src with POS := s.src.POS + s.sampleBytes }) :=
          .single (.src _ rfl fun hb => ⟨hb.mem, hle, hb.mark⟩)
        exact hsrc.tail (.br _ (pull_bounded hroom _ _))
      · exact .refl s
    · have hr : needRoom d s = .error (.refused .residualFull) s := by rw [needRoom, if_neg hroom]
      rw [pullwordOp, op_bind_ok (needDepth_some hd), op_bind_error hr]
      exact .refl s

theorem pullIfShort_moves (n : Nat) : Moves gs P (pullIfShort n) := by
  intro s hs
  by_cases h : s.br.RESCNT < n
  · rw [pullIfShort_short h]
    exact pullwordOp_moves s hs
  · rw [pullIfShort_enough (by omega)]
    exact .refl s

theorem takeBits_moves (n : Nat) : Moves gs P (takeBits n) := by
  intro s _
  rw [takeBits_run]
  refine .single (.br _ fun hb => ⟨(Nat.sub_le _ _).trans hb.1, ?_⟩)
  rw [BitVec.toNat_ofNat]
  exact (Nat.mod_le _ _).trans_lt (Nat.mod_lt _ (by positivity))

theorem getbitsOp_moves (n : Nat) : Moves gs P (getbitsOp n) :=
  .ite (.bind needDepth_moves fun _ => .bind (pullIfShort_moves n) fun _ => .bind (pullIfShort_moves n) fun _ =>
    takeBits_moves n) (.refuse _)

theorem dropBits_moves (n : Nat) : Moves gs P (dropBits n) := .bind (getbitsOp_moves n) fun _ => .pure _

theorem skipbitsOp_moves (k : Nat) : Moves gs P (skipbitsOp k) :=
  .bind (.repeatOp (dropBits_moves 32) _) fun _ => .whenOp _ (dropBits_moves _)

theorem getSample_moves : Moves gs P getSample :=
  .bind needDepth_moves fun d => .bind (getbitsOp_moves d.bits) fun _ => .pure _

theorem readLayout_moves {φ : Type} {store : φ × Nat → Nat → Op Unit} :
    ∀ l : Layout φ, (∀ e ∈ l, ∀ v, Moves gs P (store e v)) → Moves gs P (readLayout store l)
  | [], _ => .pure ()
  | e :: rest, h =>
    .bind (getbitsOp_moves e.2) fun _ => .bind (h e List.mem_cons_self _) fun _ =>
      readLayout_moves rest fun e' he => h e' (List.mem_cons_of_mem e he)

theorem crcFoldOp_moves (v : Sample) : Moves gs P (crcFoldOp v) :=
  .bind needDepth_moves fun _ => .updBr fun _ hb => hb

theorem beginRegion_moves : Moves gs P beginRegion := fun _ _ => .single (.br _ fun hb => hb)

theorem setKey_moves (k : Sample) : Moves gs P (setKey k) := .updBr fun _ hb => hb

theorem dropKey_moves : Moves gs P dropKey := .get_bind fun _ _ => .whenOp _ (setKey_moves 0)

theorem readKey_moves : Moves gs P readKey :=
  .bind dropKey_moves fun _ => .bind getSample_moves fun k => setKey_moves k

theorem keyWord_moves (k : Sample) : Moves gs P (keyWord k) := .bind (setKey_moves k) fun _ => beginRegion_moves

theorem regionStartOp_moves (first : Bool) : Moves gs P (regionStartOp first) :=
  .get_bind fun _ _ => .bind (.whenOp _ readKey_moves) fun _ => beginRegion_moves

theorem padsegOp_moves (size : Nat) (r : Region) : Moves gs P (padsegOp size r) :=
  .bind needDepth_moves fun _ => .get_bind fun _ _ =>
    .ite (skipbitsOp_moves _) (.ite (.raiseErr _) (.emitEvent _))

theorem closeRegion_moves (r : Region) (c : Sample) : Moves gs P (closeRegion r c) :=
  .get_bind fun _ _ => .bind (.whenOp _ (.emitEvent _)) fun _ => .updBr fun _ hb => hb

theorem crccheckOp_moves (r : Region) : Moves gs P (crccheckOp r) :=
  .bind getSample_moves fun c => closeRegion_moves r c

/-- Clearing `VALID` changes no field of a record. -/
theorem clearValid_bounded {par : Params} {x : Vector Ac3Rec 8} (h : RecsBounded par x) :
    RecsBounded par (clearValid x) := by
  intro p f
  simpa [clearValid, Ac3Rec.get] using h p f

theorem payloadInitOp_moves (hf : gs .frame) : Moves gs P payloadInitOp := by
  intro s _
  rw [payloadInitOp_run]
  have hbr : Path gs s (s.setBr s.br.payloadInit) := .single (.br _ fun _ => ⟨Nat.zero_le _, Nat.one_pos⟩)
  have hfr := hbr.tail (.fr { s.fr with EXTSZ := 0, NSUBM := 0, NSUBX := 0 } hf id)
  have hrecs := hfr.tail (.recs true (clearValid s.ac3m) clearValid_bounded)
  exact hrecs.tail (.recs false (clearValid s.ac3x) clearValid_bounded)

/-! ### Audio, meter, completion -/

theorem dropSample_moves : Moves gs P dropSample := .bind getSample_moves fun _ => .pure _

theorem skipChannel_moves (c : Fin 8) : Moves gs P (skipChannel c) :=
  .get_bind fun _ _ => .repeatOp dropSample_moves _

theorem audiohalfOp_moves (lo hi : Nat) (r : Region) : Moves gs P (audiohalfOp lo hi r) :=
  .bind (regionStartOp_moves false) fun _ => .bind (.forEach skipChannel_moves _) fun _ => crccheckOp_moves r

theorem audioHalves_moves (r0 r1 : Region) : Moves gs P (audioHalves r0 r1) :=
  .get_bind fun _ _ => .bind (audiohalfOp_moves _ _ r0) fun _ => audiohalfOp_moves _ _ r1

theorem setPeak_moves (c : Fin 8) (v : BitVec 10) : Moves gs P (setPeak c v) := .updCh _
theorem setRms_moves (c : Fin 8) (v : BitVec 10) : Moves gs P (setRms c v) := .updCh _

theorem meterOp_moves : Moves gs P meterOp :=
  .bind (regionStartOp_moves false) fun _ => .get_bind fun _ _ =>
    .bind (.forEach (fun c => .bind (getbitsOp_moves 10) fun v => setPeak_moves c v) _) fun _ =>
      .bind (.forEach (fun c => .bind (getbitsOp_moves 10) fun v => setRms_moves c v) _) fun _ =>
        .bind (padsegOp_moves _ _) fun _ => crccheckOp_moves .meter

theorem skipPadding_moves : Moves gs P skipPadding := by
  refine .bind srcReadWordOp_moves fun w => ?_
  cases w with
  | some _ => exact .pure ()
  | none => exact .raiseErr _

theorem completeOp_moves : Moves gs P completeOp :=
  .bind needDepth_moves fun _ => .get_bind fun _ _ =>
    .ite (.raiseErr _) (.bind (.updBr fun _ _ => ⟨Nat.zero_le _, Nat.one_pos⟩) fun _ => .repeatOp skipPadding_moves _)

/-! ### The burst layer -/

theorem headerWord_moves (i : BitVec 2) : Moves gs P (headerWord i) := by
  refine .bind srcReadWordOp_moves fun w => ?_
  cases w with
  | some w => exact .pure w
  | none => exact .raiseErr _

theorem selectDepth_moves (d : Depth) : Moves gs P (selectDepth d) := fun _ _ => .single (.pd _)

theorem confirmDepth_moves (w : Word) : Moves gs P (confirmDepth w) := by
  refine .get_bind fun s _ => ?_
  cases s.pd with
  | some d => exact .ite (.updBr fun _ hb => hb) (.raiseErr _)
  | none => exact .raiseErr _

theorem preambleOp_moves : Moves gs P preambleOp := by
  refine .bind (headerWord_moves 0) fun w1 => ?_
  cases preamble1Depth w1 with
  | some d => exact .bind (selectDepth_moves d) fun _ => .bind (headerWord_moves 1) fun w2 => confirmDepth_moves w2
  | none => exact .raiseErr _

theorem burstWord1_moves (a : BitVec 3) (b : BitVec 5) (c : BitVec 1) (m : BitVec 2) (t : BitVec 5) :
    Moves gs P (burstWord1 a b c m t) :=
  .bind (.update fun _ _ => .single (.bi _)) fun _ => .bind (.whenOp _ (.emitEvent _)) fun _ =>
    .bind (.whenOp _ (.emitEvent _)) fun _ => .whenOp _ (.emitEvent _)

theorem burstWord2_moves (len : BitVec 20) : Moves gs P (burstWord2 len) := fun _ _ => .single (.bi _)

theorem burstinfoOp_moves : Moves gs P burstinfoOp :=
  .bind (headerWord_moves 2) fun _ => .bind (headerWord_moves 3) fun _ => .bind (burstWord2_moves _) fun _ =>
    burstWord1_moves _ _ _ _ _

theorem probeFound_moves (hp : gs .probe) (off : Nat) : Moves gs P (probeFound off) :=
  .bind (.update fun _ _ => .single (.probeOff _ hp)) fun _ => .get_bind fun _ _ => .whenOp _ (.emitEvent _)

theorem stepPast_moves (off : Nat) : Moves gs P (stepPast off) := by
  refine .bind srcReadWordOp_moves fun w => ?_
  cases w with
  | some _ => exact .pure ()
  | none => exact .raiseErr _

theorem tryCandidate_moves : Moves gs P tryCandidate :=
  .bind srcResetOp_moves fun _ => .bind (.attempt preambleOp_moves) fun _ => .bind srcResetOp_moves fun _ => .pure _

theorem probeFrom_moves (hp : gs .probe) : ∀ fuel off : Nat, Moves gs P (probeFrom fuel off)
  | 0, _ => .of_still fun _ => rfl
  | fuel + 1, off => by
    refine .get_bind fun s _ => .ite (.raiseErr _) (.bind srcMarkOp_moves fun _ => .bind srcReadWordOp_moves fun w => ?_)
    cases w with
    | none => exact .raiseErr _
    | some w =>
      refine .ite (probeFrom_moves hp fuel _) (.bind tryCandidate_moves fun ok => .ite (probeFound_moves hp off) ?_)
      exact .bind (.repeatOp (stepPast_moves off) _) fun _ => probeFrom_moves hp fuel _

theorem probescanOp_moves (hp : gs .probe) : Moves gs P probescanOp := .get_bind fun _ _ => probeFrom_moves hp _ 0

/-! ### The frame header -/

theorem syncWord_moves (w : Sample) : Moves gs P (syncWord w) :=
  .bind needDepth_moves fun _ => .bind (.updBr fun _ hb => hb) fun _ => .bind (regionStartOp_moves true) fun _ =>
    .ite (.pure ()) (.raiseErr _)

theorem syncOp_moves : Moves gs P syncOp := .bind getSample_moves fun w => syncWord_moves w

theorem continuityInvalidateOp_moves (hc : gs .cont) : Moves gs P continuityInvalidateOp :=
  .bind (.update fun _ _ => .single (.cont _ hc)) fun _ => .emitEvent _

theorem continuityUpdateOp_moves (hc : gs .cont) (idx : Nat) (df : Bool) : Moves gs P (continuityUpdateOp idx df) :=
  .bind (.get_bind fun _ _ => .ite (.ite (.pure ()) (.emitEvent _)) (.pure ())) fun _ =>
    .bind (.get_bind fun _ _ => .whenOp _ (.emitEvent _)) fun _ => .update fun _ _ => .single (.cont _ hc)

theorem timecodeDone_moves (hc : gs .cont) : Moves gs P timecodeDone :=
  .get_bind fun _ _ => .ite (.bind (.updTc _) fun _ => continuityInvalidateOp_moves hc)
    (.bind (.updTc _) fun _ => continuityUpdateOp_moves hc _ _)

theorem timecodeOp_moves (hc : gs .cont) : Moves gs P timecodeOp :=
  .get_bind fun _ _ => .bind (readLayout_moves _ fun _ _ _ => .updTc _) fun _ => timecodeDone_moves hc

theorem setMdid_moves (hf : gs .frame) (v : BitVec 4) : Moves gs P (setMdid v) := .updFr hf fun _ hb => hb
theorem setMdsize_moves (hf : gs .frame) (v : BitVec 10) : Moves gs P (setMdsize v) := .updFr hf fun _ hb => hb
theorem setExtsz_moves (hf : gs .frame) (v : BitVec 8) : Moves gs P (setExtsz v) := .updFr hf fun _ hb => hb
theorem setMetsz_moves (hf : gs .frame) (v : BitVec 8) : Moves gs P (setMetsz v) := .updFr hf fun _ hb => hb

theorem pcfgOp_moves (code : BitVec 6) : Moves gs P (pcfgOp code) :=
  .get_bind fun _ _ => .ite (.pure _) (.ite (.raiseErr _) (.raiseErr _))

/-- A count of the table fits its register (10_state R33). -/
theorem toNat_ofNat_fin9 (k : Fin 9) : (BitVec.ofNat 4 k.val).toNat ≤ 8 := by
  rw [BitVec.toNat_ofNat]
  exact (Nat.mod_le _ _).trans (by omega)

theorem pcfgField_moves (hf : gs .frame) (code : BitVec 6) : Moves gs P (pcfgField code) :=
  .bind (.updFr hf fun _ hb => hb) fun _ => .bind (pcfgOp_moves code) fun e =>
    .updFr hf fun _ _ => ⟨toNat_ofNat_fin9 e.1, toNat_ofNat_fin9 e.2⟩

theorem frcField_moves (hf : gs .frame) (frc : BitVec 4) : Moves gs P (frcField frc) :=
  .bind (.updFr hf fun _ hb => hb) fun _ => .ite (.raiseErr _) (.updFr hf fun _ hb => hb)

theorem metadataOp_moves (hf : gs .frame) (hc : gs .cont) : Moves gs P metadataOp :=
  .bind (getbitsOp_moves 4) fun a => .bind (setMdid_moves hf a) fun _ =>
    .bind (getbitsOp_moves 10) fun b => .bind (setMdsize_moves hf b) fun _ =>
      .bind (getbitsOp_moves 6) fun c => .bind (pcfgField_moves hf c) fun _ =>
        .bind (getbitsOp_moves 4) fun t => .bind (frcField_moves hf t) fun _ => timecodeOp_moves hc

theorem setChsz_moves (c : Fin 8) (v : BitVec 10) : Moves gs P (setChsz c v) := .updCh _

theorem framedistOp_moves (hf : gs .frame) : Moves gs P framedistOp :=
  .get_bind fun _ _ => .bind (.forEach (fun c => .bind (getbitsOp_moves 10) fun v => setChsz_moves c v) _) fun _ =>
    .bind (.whenOp _ (.bind (getbitsOp_moves 8) fun v => setExtsz_moves hf v)) fun _ =>
      .bind (getbitsOp_moves 8) fun m => setMetsz_moves hf m

/-- A description character keeps the text bounded and printable (42_frame_header R200). -/
theorem DescText.Ok.after {max : Nat} {t : DescText} (h : t.Ok max) (ch : BitVec 8) : (t.after max ch).Ok max := by
  rw [DescText.after]
  split_ifs with hstx hetx hprint
  · exact ⟨Nat.zero_le _, h.descLen, fun _ hc => absurd hc List.not_mem_nil, h.descPrintable⟩
  · exact ⟨h.runLen, h.runLen, h.runPrintable, h.runPrintable⟩
  · obtain ⟨hp, _, hlt⟩ := hprint
    refine ⟨by simpa using hlt, h.descLen, fun c hc => ?_, h.descPrintable⟩
    rcases List.mem_append.mp hc with hc | hc
    · exact h.runPrintable c hc
    · rw [List.mem_singleton.mp hc]
      exact hp
  · exact h

theorem desccharOp_moves (hd : gs .desc) (p : Fin 8) (ch : BitVec 8) : Moves gs P (desccharOp p ch) := by
  intro s _
  rw [desccharOp_run]
  have hdesc : Path gs s (s.setDesc (vset s.desc p ((s.desc[p]).after s.par.descMax ch))) := by
    refine .single (.desc _ hd fun ht q => ?_)
    by_cases hq : p = q
    · subst hq
      simpa [vset] using (ht p).after ch
    · have hne : p.val ≠ q.val := fun hc => hq (Fin.ext hc)
      simpa [vset, Vector.getElem_set_ne, hne] using ht q
  show Path gs s ((s.setDesc _).setEv (s.ev ++ (s.desc[p]).published p ch))
  rw [DescText.published]
  split_ifs
  · exact hdesc.tail (.ev _)
  · rw [List.append_nil]
    exact hdesc

theorem setDchar_moves (p : Fin 8) (v : BitVec 8) : Moves gs P (setDchar p v) := .updPg _
theorem setBwid_moves (p : Fin 8) (v : BitVec 2) : Moves gs P (setBwid p v) := .updPg _

theorem progmetaOp_moves (hd : gs .desc) : Moves gs P progmetaOp :=
  .get_bind fun _ _ => .forEach (fun p => .bind (getbitsOp_moves 8) fun c => .bind (setDchar_moves p c) fun _ =>
    .bind (desccharOp_moves hd p c) fun _ => .bind (getbitsOp_moves 2) fun b => setBwid_moves p b) _

theorem setRevid_moves (c : Fin 8) (v : BitVec 4) : Moves gs P (setRevid c v) := .updCh _
theorem setBitpool_moves (c : Fin 8) (v : BitVec 1) : Moves gs P (setBitpool c v) := .updCh _
theorem setBgain_moves (c : Fin 8) (v : BitVec 10) : Moves gs P (setBgain c v) := .updCh _
theorem setEgain_moves (c : Fin 8) (v : BitVec 10) : Moves gs P (setEgain c v) := .updCh _

theorem readCmeta_moves (c : Fin 8) : Moves gs P (readCmeta c) :=
  .bind (getbitsOp_moves 4) fun r => .bind (setRevid_moves c r) fun _ =>
    .bind (getbitsOp_moves 1) fun p => .bind (setBitpool_moves c p) fun _ =>
      .bind (getbitsOp_moves 10) fun b => .bind (setBgain_moves c b) fun _ =>
        .bind (getbitsOp_moves 10) fun e => setEgain_moves c e

theorem chanmetaOp_moves : Moves gs P chanmetaOp := .get_bind fun _ _ => .forEach readCmeta_moves _

/-! ### Subsegments -/

theorem ac3checkOp_moves (base : Bool) (p : Fin 8) : Moves gs P (ac3checkOp base p) :=
  .get_bind fun _ _ => .whenOp _ (.emitEvent _)

theorem ac3BlockDone_moves (ext base : Bool) (p : Fin 8) : Moves gs P (ac3BlockDone ext base p) :=
  .bind (.updRec base p fun _ hr => hr) fun _ => ac3checkOp_moves base p

/-- The values of a layout in force keep every field of a record within the width the layouts give it. -/
theorem storeAll_bounded (ext : Bool) (vals : List Nat) (r : Ac3Rec)
    (hr : ∀ g, (r.get g).toNat < 2 ^ P.recordWidth g) (g : Ac3Field) :
    ((r.storeAll ((P.ac3Layout ext).withValues vals)).get g).toNat < 2 ^ P.recordWidth g :=
  Ac3Rec.storeAll_lt _ r (fun _ hx => le_recordWidth (List.of_mem_zip hx).1) hr g

/-- An entry of a layout in force keeps every field of a record within the width the layouts give it. -/
theorem store_bounded {ext : Bool} {e : Ac3Field × Nat} (he : e ∈ P.ac3Layout ext) (v : Nat) (r : Ac3Rec)
    (hr : ∀ g, (r.get g).toNat < 2 ^ P.recordWidth g) (g : Ac3Field) :
    ((r.store e v).get g).toNat < 2 ^ P.recordWidth g :=
  Ac3Rec.storeAll_lt [(e, v)] r (fun x hx => by rw [List.mem_singleton.mp hx]; exact le_recordWidth he) hr g

theorem readAc3Block_moves (ext base : Bool) (p : Fin 8) : Moves gs P (readAc3Block ext base p) := by
  refine .get_bind fun s hs => ?_
  subst hs
  exact .bind (readLayout_moves _ fun e he v => .updRec base p fun r hr => store_bounded he v r hr) fun _ =>
    ac3BlockDone_moves ext base p

theorem addbsiAbsent_moves (base : Bool) (p : Fin 8) : Moves gs P (addbsiAbsent base p) :=
  .updRec base p fun _ hr => hr

theorem addbsiPresent_moves (base : Bool) (p : Fin 8) (len : BitVec 6) : Moves gs P (addbsiPresent base p len) :=
  .bind (.updRec base p fun _ hr => hr) fun _ => skipbitsOp_moves _

theorem setAddbsie_moves (base : Bool) (p : Fin 8) (v : Bool) : Moves gs P (setAddbsie base p v) :=
  .updRec base p fun _ hr => hr

theorem addbsiOp_moves (base : Bool) (p : Fin 8) : Moves gs P (addbsiOp base p) :=
  .bind (getbitsOp_moves 1) fun _ => .bind (setAddbsie_moves base p _) fun _ =>
    .ite (.bind (getbitsOp_moves 6) fun len => addbsiPresent_moves base p len) (addbsiAbsent_moves base p)

theorem ac3infoOp_moves (ext base : Bool) : Moves gs P (ac3infoOp ext base) :=
  .get_bind fun _ _ => .bind (.forEach (readAc3Block_moves ext base) _) fun _ => .forEach (addbsiOp_moves base) _

theorem subBody_moves (base : Bool) (id : BitVec 4) (len : BitVec 12) : Moves gs P (subBody base id len) :=
  .ite (ac3infoOp_moves _ base) (skipbitsOp_moves _)

theorem reconcileLength_moves (id : BitVec 4) (len : BitVec 12) (used : Nat) :
    Moves gs P (reconcileLength id len used) := .ite (skipbitsOp_moves _) (.whenOp _ (.emitEvent _))

theorem countSubseg_moves (hf : gs .frame) (base : Bool) : Moves gs P (countSubseg base) :=
  .updFr hf fun _ hb => by cases base <;> exact hb

theorem subBlock_moves (hf : gs .frame) (base : Bool) (id : BitVec 4) (len : BitVec 12) :
    Moves gs P (subBlock base id len) :=
  .get_bind fun _ _ => .bind (subBody_moves base id len) fun _ => .get_bind fun _ _ =>
    .bind (.whenOp _ (reconcileLength_moves id len _)) fun _ => countSubseg_moves hf base

theorem subsegFrom_moves (hf : gs .frame) (base : Bool) : ∀ fuel : Nat, Moves gs P (subsegFrom base fuel)
  | 0 => .of_still fun _ => rfl
  | fuel + 1 =>
    .bind (getbitsOp_moves 4) fun id => .ite (.pure ()) (.bind (getbitsOp_moves 12) fun len =>
      .bind (subBlock_moves hf base id len) fun _ => subsegFrom_moves hf base fuel)

theorem subsegloopOp_moves (hf : gs .frame) (base : Bool) : Moves gs P (subsegloopOp base) :=
  .get_bind fun _ _ => subsegFrom_moves hf base _

theorem mdsubsegOp_moves (hf : gs .frame) : Moves gs P mdsubsegOp :=
  .bind (subsegloopOp_moves hf true) fun _ => .get_bind fun _ _ => .bind (padsegOp_moves _ _) fun _ =>
    crccheckOp_moves .metadata

theorem extsubsegOp_moves (hf : gs .frame) : Moves gs P extsubsegOp :=
  .bind (regionStartOp_moves false) fun _ => .bind (subsegloopOp_moves hf false) fun _ => .get_bind fun _ _ =>
    .bind (padsegOp_moves _ _) fun _ => crccheckOp_moves .extMeta

/-! ### Commands -/

theorem acceptBurst_moves (hf : gs .frame) : Moves gs P acceptBurst :=
  .get_bind fun _ _ => .ite
    (.bind (.whenOp _ (.bind needDepth_moves fun _ => .get_bind fun _ _ => .ite (.raiseErr _) (.pure ()))) fun _ =>
      payloadInitOp_moves hf)
    (.raiseErr _)

theorem enter_moves (hs : gs .seq) {st : SeqState} (hu : st ≠ .unused) : Moves gs P (enter st) :=
  .updSeq hs fun _ _ => hu

theorem beginCmd_moves (hs : gs .seq) : Moves gs P beginCmd :=
  fun s _ => by
    have hseq : Path gs s (s.setSeq { s.seq with DONE := false, ERRK := 0, ERRS := 0, ERRST := 0, BUSY := true }) :=
      .single (.seq _ hs id)
    exact hseq.tail (.lastErr none)

theorem finishCmd_moves (hs : gs .seq) : Moves gs P finishCmd := .updSeq hs fun _ _ => nofun

theorem clearOp_moves (hs : gs .seq) (hf : gs .frame) : Moves gs P clearOp :=
  .bind (payloadInitOp_moves hf) fun _ => .bind (.updBr fun _ hb => hb) fun _ => .updSeq hs fun _ hu => hu

theorem seqStep_moves (hs : gs .seq) {st next : SeqState} {body : Op Unit} (h1 : st ≠ .unused) (hb : Moves gs P body)
    (h2 : next ≠ .unused) : Moves gs P (seqStep st body next) :=
  .bind (enter_moves hs h1) fun _ => .bind hb fun _ => enter_moves hs h2

theorem lastStep_moves (hs : gs .seq) {st : SeqState} {body : Op Unit} (h1 : st ≠ .unused) (hb : Moves gs P body) :
    Moves gs P (lastStep st body) := .bind (enter_moves hs h1) fun _ => .bind hb fun _ => finishCmd_moves hs

theorem extensionStates_moves (hs : gs .seq) (hf : gs .frame) : Moves gs P extensionStates :=
  .bind (enter_moves hs (by decide)) fun _ => .bind (extsubsegOp_moves hf) fun _ =>
    .bind (enter_moves hs (by decide)) fun _ => audioHalves_moves _ _

theorem readFrameOp_moves (hs : gs .seq) (hf : gs .frame) (hc : gs .cont) (hd : gs .desc) :
    Moves gs P readFrameOp :=
  .bind (enter_moves hs (by decide)) fun _ => .bind preambleOp_moves fun _ =>
    .bind (enter_moves hs (by decide)) fun _ => .bind burstinfoOp_moves fun _ => .bind (acceptBurst_moves hf) fun _ =>
    .bind (enter_moves hs (by decide)) fun _ => .bind syncOp_moves fun _ =>
    .bind (enter_moves hs (by decide)) fun _ => .bind (metadataOp_moves hf hc) fun _ =>
    .bind (enter_moves hs (by decide)) fun _ => .bind (framedistOp_moves hf) fun _ =>
    .bind (enter_moves hs (by decide)) fun _ => .bind (progmetaOp_moves hd) fun _ =>
    .bind (enter_moves hs (by decide)) fun _ => .bind chanmetaOp_moves fun _ =>
    .bind (enter_moves hs (by decide)) fun _ => .bind (mdsubsegOp_moves hf) fun _ =>
    .bind (enter_moves hs (by decide)) fun _ => .bind (audioHalves_moves _ _) fun _ =>
    .get_bind fun _ _ => .bind (.whenOp _ (extensionStates_moves hs hf)) fun _ =>
    .bind (enter_moves hs (by decide)) fun _ => .bind meterOp_moves fun _ =>
    .bind (enter_moves hs (by decide)) fun _ => completeOp_moves

theorem probeOp_moves (hs : gs .seq) (hp : gs .probe) : Moves gs P probeOp :=
  .bind (enter_moves hs (by decide)) fun _ => probescanOp_moves hp

end

end Sys2Proof.Machine
end

section
/-! PROOF. What an instruction and a step can do, said once: a run of assignments to the groups the instruction may write,
which keeps `BUSY` in step with `ST`. -/

namespace Sys2Proof.Machine

/-! ### The groups an instruction may write -/

/-- The instructions that update timecode continuity, and what runs them (10_state R39, 42_frame_header R195, R197). -/
def touchesContinuity : Instr → Bool
  | .readFrame | .metadata | .timecode | .continuityInvalidate | .tcblock _ | .continuityUpdate _ _ => true
  | _ => false

/-- The instructions that take a description character, and what runs them (10_state R40, 42_frame_header R199, R200). -/
def touchesText : Instr → Bool
  | .readFrame | .progmeta | .pmeta _ _ _ | .nul _ | .stx _ | .etx _ | .print _ _ | .charOther _ _ | .descchar _ _ => true
  | _ => false

/-- The instructions that run the probe (41_burst R165, R166). -/
def touchesProbe : Instr → Bool
  | .probe | .probescan => true
  | _ => false

/-- The groups the operation of an instruction may write, `ST` and `STATUS` left to what runs it. -/
def BodyWrites (i : Instr) : Group → Prop
  | .seq | .host => False
  | .frame => True
  | .cont => touchesContinuity i = true
  | .desc => touchesText i = true
  | .probe => touchesProbe i = true

/-- These groups, and `ST` with `STATUS`. -/
def WithSeq (gs : Group → Prop) (g : Group) : Prop := g = .seq ∨ gs g

/-- How an instruction moves the state: along a path, `BUSY` staying in step with `ST` (10_state R30). -/
structure Run (gs : Group → Prop) (s t : State) : Prop where
  path : Path (WithSeq gs) s t
  settled : Settled s → Settled t

section
variable {gs hs : Group → Prop} {s t u : State}

theorem withSeq_seq : WithSeq gs .seq := .inl rfl

theorem withSeq_mono (hle : ∀ g, gs g → hs g) (g : Group) : WithSeq gs g → WithSeq hs g := Or.imp_right (hle g)

theorem Run.refl (s : State) : Run gs s s := ⟨.refl s, id⟩

theorem Run.trans (h1 : Run gs s t) (h2 : Run gs t u) : Run gs s u :=
  ⟨h1.path.trans h2.path, fun hs => h2.settled (h1.settled hs)⟩

theorem Run.mono (hle : ∀ g, gs g → hs g) (h : Run gs s t) : Run hs s t :=
  ⟨h.path.mono (withSeq_mono hle), h.settled⟩

/-- A path that leaves `ST` and `STATUS` alone. -/
theorem Path.run (h : Path gs s t) (hq : ¬gs .seq) : Run gs s t :=
  ⟨h.mono fun _ => .inr, fun hs => by rwa [Settled, h.seq_eq hq]⟩

theorem Run.inv (h : Run gs s t) (hs : s.Inv) : t.Inv := by
  obtain ⟨hheld, hset⟩ := (inv_iff s).mp hs
  exact (inv_iff t).mpr ⟨h.path.held hheld, h.settled hset⟩

/-! ### Operations run as instructions -/

theorem latch_settled (s : State) (e : ErrVal) : Settled (s.latch e) := by simp [Settled]

/-- Taking an error writes the latch and the returned value (60_exceptions R283). -/
theorem latch_path (s : State) (e : ErrVal) : Path (WithSeq gs) s (s.latch e) := by
  have hseq : Path (WithSeq gs) s
      (s.setSeq ⟨.idle, false, false, kindCode (errKind e), errSub e, s.seq.ST.code⟩) :=
    .single (.seq _ withSeq_seq fun _ => nofun)
  exact hseq.tail (.lastErr (some (e, s.seq.ST)))

theorem enter_settled {st : SeqState} (hst : st ≠ .idle) (h : enter st s = .ok () t) : Settled t := by
  rw [enter_run] at h
  cases h
  exact ⟨fun _ => hst, fun _ => rfl⟩

theorem finishCmd_settled (h : finishCmd s = .ok () t) : Settled t := by
  cases (show EStateM.Result.ok () (s.setSeq { s.seq with ST := .idle, BUSY := false, DONE := true }) = .ok () t from h)
  simp [Settled]

/-- An operation that leaves `BUSY` in step with `ST` when it ends normally. -/
theorem runOp_run_of_end {x : Op Unit} (hx : Moves (WithSeq gs) s.par x)
    (hend : ∀ v, x s = .ok () v → Settled s → Settled v) (h : runOp x s = .next t) : Run gs s t := by
  rcases runOp_eq_next h with hok | ⟨e, v, herr, rfl⟩
  · exact ⟨hx.ok hok, hend t hok⟩
  · exact ⟨(hx.error herr).trans (latch_path v e), fun _ => latch_settled v e⟩

/-- An operation that writes neither `ST` nor `STATUS`. -/
theorem runOp_run (hq : ¬gs .seq) {x : Op Unit} (hx : Moves gs s.par x) (h : runOp x s = .next t) : Run gs s t :=
  runOp_run_of_end (hx.mono fun _ => .inr) (fun _ hok => ((hx.ok hok).run hq).settled) h

/-- The operation of a sequencer state and its successor (10_state R27). -/
theorem seqStep_run {st next : SeqState} {body : Op Unit} (hst : st ≠ .unused) (hb : Moves gs s.par body)
    (hidle : next ≠ .idle) (hnext : next ≠ .unused) (h : runOp (seqStep st body next) s = .next t) : Run gs s t := by
  refine runOp_run_of_end (seqStep_moves withSeq_seq hst (hb.mono fun _ => .inr) hnext) (fun v hok _ => ?_) h
  obtain ⟨_, _, _, hrest⟩ := op_bind_eq_ok hok
  obtain ⟨_, _, _, hlast⟩ := op_bind_eq_ok hrest
  exact enter_settled hidle hlast

/-- The operation of a state that ends its command (10_state R27). -/
theorem lastStep_run {st : SeqState} {body : Op Unit} (hst : st ≠ .unused) (hb : Moves gs s.par body)
    (h : runOp (lastStep st body) s = .next t) : Run gs s t := by
  refine runOp_run_of_end (lastStep_moves withSeq_seq hst (hb.mono fun _ => .inr)) (fun v hok _ => ?_) h
  obtain ⟨_, _, _, hrest⟩ := op_bind_eq_ok hok
  obtain ⟨_, _, _, hlast⟩ := op_bind_eq_ok hrest
  exact finishCmd_settled hlast

/-- A command run to its end (41_burst R160). -/
theorem runCommand_run {body : Op Unit} (hb : Moves (WithSeq gs) s.par body) (h : runCommand body s = .next t) :
    Run gs s t := by
  rw [runCommand] at h
  split_ifs at h with hbusy
  · cases h
    exact .refl s
  · refine runOp_run_of_end
      (.bind (beginCmd_moves withSeq_seq) fun _ => .bind hb fun _ => finishCmd_moves withSeq_seq) (fun v hok _ => ?_) h
    obtain ⟨_, _, _, hrest⟩ := op_bind_eq_ok hok
    obtain ⟨_, _, _, hlast⟩ := op_bind_eq_ok hrest
    exact finishCmd_settled hlast

/-- The operation of an instruction that is no command and no sequencer state. -/
theorem body_run {i : Instr} {x : Op Unit} (hx : Moves (BodyWrites i) s.par x) (h : runOp x s = .next t) :
    Run (BodyWrites i) s t := runOp_run id hx h

/-- An instruction that is one description character. -/
theorem text_run {i : Instr} (ht : touchesText i = true) {p : Fin 8} {ch : BitVec 8}
    (h : runOp (desccharOp p ch) s = .next t) : Run (BodyWrites i) s t := body_run (desccharOp_moves ht p ch) h

/-- An instruction that answers the state as it is. -/
theorem still_run {r : Result} (hr : r = .next s) (h : r = .next t) : Run gs s t := by
  cases hr.symm.trans h
  exact .refl s

theorem execMemRead_run {a n : Nat} (h : execMemRead a n s = .next t) : Run gs s t := by
  rw [execMemRead] at h
  split at h <;> cases h <;> exact ⟨.single (.ret _), id⟩

theorem srcReadWord_giveBack_moves {P : Params} :
    Moves gs P (srcReadWordOp >>= fun w => match w with
      | some w => giveBack (.num w.toNat)
      | none => giveBack .endOfData) := by
  refine .bind srcReadWordOp_moves fun w => ?_
  cases w <;> exact giveBack_moves _

/-! ### Every instruction -/

/-- What an instruction can do. -/
theorem exec_run {i : Instr} (h : exec i s = .next t) : Run (BodyWrites i) s t := by
  cases i with
  | nop | cmdReserved5 | cmdReserved6 | cmdReserved7 | idle | subend => exact still_run rfl h
  | audiosample16 | audiosample20 | audiosample24 => exact still_run rfl h
  | readFrame => exact runCommand_run (readFrameOp_moves withSeq_seq (.inr trivial) (.inr rfl) (.inr rfl)) h
  | probe => exact runCommand_run (probeOp_moves withSeq_seq (.inr rfl)) h
  | align => exact runCommand_run srcAlignOp_moves h
  | clear => exact runCommand_run (clearOp_moves withSeq_seq (.inr trivial)) h
  | preamble => exact seqStep_run (by decide) preambleOp_moves (by decide) (by decide) h
  | burstinfo => exact seqStep_run (by decide) burstinfoOp_moves (by decide) (by decide) h
  | sync => exact seqStep_run (by decide) syncOp_moves (by decide) (by decide) h
  | metadata => exact seqStep_run (by decide) (metadataOp_moves trivial rfl) (by decide) (by decide) h
  | framedist => exact seqStep_run (by decide) (framedistOp_moves trivial) (by decide) (by decide) h
  | progmeta => exact seqStep_run (by decide) (progmetaOp_moves rfl) (by decide) (by decide) h
  | chanmeta => exact seqStep_run (by decide) chanmetaOp_moves (by decide) (by decide) h
  | mdsubseg => exact seqStep_run (by decide) (mdsubsegOp_moves trivial) (by decide) (by decide) h
  | audio =>
    refine seqStep_run (next := if s.fr.LFR then .extsubseg else .meter) (by decide) (audioHalves_moves _ _) ?_ ?_ h
    · split_ifs <;> decide
    · split_ifs <;> decide
  | extsubseg => exact seqStep_run (by decide) (extsubsegOp_moves trivial) (by decide) (by decide) h
  | audioext => exact seqStep_run (by decide) (audioHalves_moves _ _) (by decide) (by decide) h
  | meter => exact seqStep_run (by decide) meterOp_moves (by decide) (by decide) h
  | complete => exact lastStep_run (by decide) completeOp_moves h
  | probescan => exact lastStep_run (by decide) (probescanOp_moves rfl) h
  | pa16 | pa20 | pa24 => exact body_run (selectDepth_moves _) h
  | pb16 | pb20 | pb24 => exact body_run (confirmDepth_moves _) h
  | bi1 => exact body_run (burstWord1_moves _ _ _ _ _) h
  | bi2 => exact body_run (burstWord2_moves _) h
  | sync16 | sync20 | sync24 => exact body_run (syncWord_moves _) h
  | keyw16 | keyw20 | keyw24 => exact body_run (keyWord_moves _) h
  | crcw16 | crcw20 | crcw24 => exact body_run (closeRegion_moves _ _) h
  | mdhdr mdid size pcfgc frc =>
    exact body_run (.bind (setMdid_moves trivial mdid) fun _ => .bind (setMdsize_moves trivial size) fun _ =>
      .bind (pcfgField_moves trivial pcfgc) fun _ => frcField_moves trivial frc) h
  | tcblock => exact body_run (.bind (.updTc _) fun _ => timecodeDone_moves rfl) h
  | chsz => exact body_run (setChsz_moves _ _) h
  | extsz => exact body_run (setExtsz_moves trivial _) h
  | metsz => exact body_run (setMetsz_moves trivial _) h
  | pmeta p ch bw =>
    have hd : BodyWrites (.pmeta p ch bw) .desc := rfl
    exact body_run (.bind (setDchar_moves p ch) fun _ => .bind (desccharOp_moves hd p ch) fun _ =>
      setBwid_moves p bw) h
  | cmeta c rev pool bgain egain =>
    exact body_run (.bind (setRevid_moves c rev) fun _ => .bind (setBitpool_moves c pool) fun _ =>
      .bind (setBgain_moves c bgain) fun _ => setEgain_moves c egain) h
  | nul p => exact text_run (p := p) (ch := 0x00#8) rfl h
  | stx p => exact text_run (p := p) (ch := 0x02#8) rfl h
  | etx | print | charOther | descchar => exact text_run rfl h
  | ac3x | ac3b | subskip2x | subskip3 | subskip4to7 | subskip8to15 => exact body_run (subBlock_moves trivial _ _ _) h
  | ac3base base p vals =>
    exact body_run (.bind (.updRec base p (storeAll_bounded false vals)) fun _ => ac3BlockDone_moves false base p) h
  | ac3ext base p vals more =>
    exact body_run (.bind (.updRec base p (storeAll_bounded true (vals ++ more))) fun _ =>
      ac3BlockDone_moves true base p) h
  | addbsi0 => exact body_run (addbsiAbsent_moves _ _) h
  | addbsi1 base p len =>
    exact body_run (.bind (setAddbsie_moves base p true) fun _ => addbsiPresent_moves base p len) h
  | peak => exact body_run (setPeak_moves _ _) h
  | rms => exact body_run (setRms_moves _ _) h
  | pcfgValid | pcfgReserved => exact body_run (pcfgField_moves trivial _) h
  | pcfgIllegal => exact body_run (pcfgField_moves trivial 63#6) h
  | frcLow | frcStd | frcReserved => exact body_run (frcField_moves trivial _) h
  | crcfold => exact body_run (crcFoldOp_moves _) h
  | payloadInit => exact body_run (payloadInitOp_moves trivial) h
  | pullword => exact body_run pullwordOp_moves h
  | getbits n => exact body_run (.bind (getbitsOp_moves n) fun _ => giveBack_moves _) h
  | skipbits | skipsubseg => exact body_run (skipbitsOp_moves _) h
  | regionStart => exact body_run (regionStartOp_moves _) h
  | padseg => exact body_run (padsegOp_moves _ _) h
  | crccheck => exact body_run (crccheckOp_moves _) h
  | timecode => exact body_run (timecodeOp_moves rfl) h
  | continuityUpdate idx df =>
    have hc : BodyWrites (.continuityUpdate idx df) .cont := rfl
    exact body_run (continuityUpdateOp_moves hc idx df) h
  | continuityInvalidate => exact body_run (continuityInvalidateOp_moves rfl) h
  | subsegloop => exact body_run (subsegloopOp_moves trivial _) h
  | ac3info => exact body_run (ac3infoOp_moves _ _) h
  | addbsi => exact body_run (addbsiOp_moves _ _) h
  | ac3check => exact body_run (ac3checkOp_moves _ _) h
  | audiohalf => exact body_run (audiohalfOp_moves _ _ _) h
  | pcfg code => exact body_run (.bind (pcfgOp_moves code) fun _ => giveBack_moves _) h
  | memRead => exact execMemRead_run h
  | srcReadWord => exact body_run srcReadWord_giveBack_moves h
  | srcMark => exact body_run srcMarkOp_moves h
  | srcReset => exact body_run srcResetOp_moves h
  | srcAlign => exact body_run srcAlignOp_moves h
  | raise e => exact body_run (.raiseErr e) h
  | emit e => exact body_run (.emitEvent e) h

end

/-! ### Every step -/

/-- The groups a step may write besides `ST` and `STATUS`: all. -/
def StepWrites (_ : Group) : Prop := True

section
variable {s t u : State}

theorem Run.step {gs : Group → Prop} (h : Run gs s t) : Run StepWrites s t := h.mono fun _ _ => trivial

/-- An operation of a step that needs no permission. -/
theorem runOp_step {x : Op Unit} (hx : Moves (fun _ => False) s.par x) (h : runOp x s = .next t) : Run StepWrites s t :=
  (runOp_run id hx h).step

theorem runRejected_run {e : Reject} (h : runRejected e s = .next t) : Run StepWrites s t := by
  cases e with
  | notPreamble1 w | notPreamble2 w => exact runOp_step (.raiseErr _) h
  | notSync d w => exact runOp_step (syncWord_moves w) h
  | stUnused | tooWide | wrongLength => cases h

theorem runCode_run {c : Code} (h : runCode c s = .next t) : Run StepWrites s t := by
  rw [runCode] at h
  split at h
  · exact (exec_run h).step
  · exact runRejected_run h

theorem readFields_moves {gs : Group → Prop} {P : Params} : ∀ (ws : List Nat) (acc : Nat), Moves gs P (readFields ws acc)
  | [], acc => .pure acc
  | w :: ws, _ => .bind (getbitsOp_moves w) fun _ => readFields_moves ws _

theorem fetchWord_moves {gs : Group → Prop} {P : Params} (i : BitVec 2) : Moves gs P (fetchWord i) :=
  .bind (headerWord_moves i) fun _ => .pure _

theorem fetchSample_moves {gs : Group → Prop} {P : Params} (d : Depth) : Moves gs P (fetchSample d) :=
  .bind needDepth_moves fun _ => .ite (readFields_moves _ _) (.refuse _)

/-- Fetching a unit reads the stream and writes no register but those of the bit reader. -/
theorem fetchUnit_moves {gs : Group → Prop} {P : Params} (slot : Slot) : Moves gs P (fetchUnit slot) := by
  cases slot with
  | cmd | state => exact .refuse _
  | preamble1 | preamble2 | burst1 | burst2 => exact .bind (fetchWord_moves _) fun _ => .pure _
  | sync d | crcWord d | audioSample d => exact .bind (fetchSample_moves d) fun _ => .pure _
  | key d => exact .bind dropKey_moves fun _ => .bind (fetchSample_moves d) fun _ => .pure _
  | tcblock | ac3Block => exact .get_bind fun _ _ => .bind (readFields_moves _ _) fun _ => .pure _
  | subHeader | addbsi =>
    exact .bind (getbitsOp_moves _) fun _ => .ite (.pure _) (.bind (readFields_moves _ _) fun _ => .pure _)
  | mdhdr | chsz | extsz | metsz | pmeta | cmeta | descChar | peak | rms | pcfgCode | frcCode =>
    exact .bind (readFields_moves _ _) fun _ => .pure _

theorem recogniseUnit_run {slot : Slot} (h : recogniseUnit slot s = .next t) : Run StepWrites s t := by
  have hm : Moves (fun _ => False) s.par (fetchUnit slot) := fetchUnit_moves slot
  rw [recogniseUnit] at h
  split at h
  · next c v hv => exact ((hm.ok hv).run id).step.trans (runCode_run h)
  · next a v hv => exact ((hm.error hv).run id).step.trans (runOp_step (.of_still fun _ => rfl) h)

theorem cfg_run (x : CfgRegs) : Run StepWrites s (s.setCfg x) := ⟨.single (.cfg x (.inr trivial)), id⟩
theorem ret_run (x : Ret) : Run StepWrites s (s.setRet x) := ⟨.single (.ret x), id⟩
theorem port_run (x : List Request) : Run StepWrites s (s.setPort x) := ⟨.single (.port x (.inr trivial)), id⟩

theorem hostSet_run {f : State → State} (hf : Run StepWrites s (f s)) (h : hostSet f s = .next t) :
    Run StepWrites s t := by
  rw [hostSet] at h
  split_ifs at h
  cases h
  exact hf

theorem hostWrite_run {reg : Nat} {v : BitVec 32} (h : hostWrite reg v s = .next t) : Run StepWrites s t := by
  rw [hostWrite.eq_def] at h
  split at h
  · exact still_run rfl h
  · exact hostSet_run (cfg_run _) h
  · exact hostSet_run (cfg_run _) h
  · exact hostSet_run (cfg_run _) h
  · exact still_run rfl h
  · exact runCode_run h
  · cases h

theorem hostRead_run {reg : Nat} (h : hostRead reg s = .next t) : Run StepWrites s t := by
  rw [hostRead.eq_def] at h
  split at h <;> cases h <;> exact ret_run _

theorem hostSeek_run {pos : Nat} (h : hostSeek pos s = .next t) : Run StepWrites s t := by
  rw [hostSeek] at h
  split_ifs at h with _ hpos
  cases h
  exact ⟨.single (.src _ rfl fun hb => ⟨hb.mem, hpos, hb.mark⟩), id⟩

/-- A command begun in single states enters its first state (log 7). -/
theorem begin_run {st : SeqState} (hidle : st ≠ .idle) (hused : st ≠ .unused)
    (h : runOp (beginCmd >>= fun _ => enter st) s = .next t) : Run StepWrites s t := by
  refine runOp_run_of_end (.bind (beginCmd_moves withSeq_seq) fun _ => enter_moves withSeq_seq hused)
    (fun v hok _ => ?_) h
  obtain ⟨_, _, _, hlast⟩ := op_bind_eq_ok hok
  exact enter_settled hidle hlast

theorem beginStepped_run {code : BitVec 3} (h : beginStepped code s = .next t) : Run StepWrites s t := by
  rw [beginStepped] at h
  split_ifs at h
  · exact still_run rfl h
  · exact begin_run (by decide) (by decide) h
  · exact begin_run (by decide) (by decide) h
  · exact runCode_run h

theorem serve_run {r : Request} (h : serve r s = .next t) : Run StepWrites s t := by
  cases r with
  | write reg v => exact hostWrite_run h
  | read reg => exact hostRead_run h
  | seek pos => exact hostSeek_run h
  | stepped code => exact beginStepped_run h
  | recognise slot => exact recogniseUnit_run h
  | invoke i => exact (exec_run h).step

theorem passBurst_run (h : passBurst s = .next t) : Run StepWrites s t :=
  (seqStep_run (gs := fun g => g = .frame) (by decide) (acceptBurst_moves rfl) (by decide) (by decide) h).step

/-- What follows a state's operation: nothing, or the tests of the burst (log 27). -/
theorem betweenStates_eq_next {st : SeqState} {r : Result} (h : betweenStates st r = .next t) :
    r = .next t ∨ ∃ v, r = .next v ∧ passBurst v = .next t := by
  cases r with
  | next v =>
    rw [betweenStates] at h
    split_ifs at h
    · exact .inr ⟨v, rfl, h⟩
    · exact .inl h
  | fault f => cases h
  | refused q => cases h

theorem runState_run (h : runState s = .next t) : Run StepWrites s t := by
  rcases betweenStates_eq_next h with hr | ⟨v, hr, hpass⟩
  · exact runCode_run hr
  · exact (runCode_run hr).trans (passBurst_run hpass)

/-- What a step can do. -/
theorem step_run (h : step s = .next t) : Run StepWrites s t := by
  rw [step, stepOnce] at h
  split at h
  · exact runState_run h
  · split_ifs at h
    · exact (port_run _).trans (serve_run h)
    · exact runState_run h

end

/-! ### Obligations -/

/-- Settles O8: a step is a run of assignments, each of which keeps the bounds, and it leaves `BUSY` in step with `ST`. -/
theorem stepKeepsInv : Obligations.StepKeepsInv := fun _ _ hs h => (step_run h).inv hs

/-- The step at `ST = 15` (10_state R29; log 16). -/
theorem step_unused {s : State} (hst : s.seq.ST = .unused) (hp : s.port = []) : step s = .fault .stUnused := by
  rw [step, stepOnce, hp]
  show betweenStates s.seq.ST (runCode ⟨.state, 4, s.seq.ST.code.toNat⟩ s) = _
  rw [hst]
  rfl

/-- Settles O9: no assignment writes `ST = 15`, and no instruction has that code. -/
theorem unusedStateNeverEntered : Obligations.UnusedStateNeverEntered :=
  ⟨fun _ _ _ hu h => (exec_run h).path.used hu, fun _ _ hu h => (step_run h).path.used hu,
    fun _ hst hp => step_unused hst hp⟩

/-- Settles O11: each assignment appends to the trace or leaves it. -/
theorem traceOnlyGrows : Obligations.TraceOnlyGrows :=
  ⟨fun _ _ _ h => (exec_run h).path.ev_append, fun _ _ h => (step_run h).path.ev_append⟩

theorem withSeq_not {gs : Group → Prop} {g : Group} (hne : g ≠ .seq) (hn : ¬gs g) : ¬WithSeq gs g :=
  not_or.mpr ⟨hne, hn⟩

theorem touchesProbe_eq {i : Instr} (h : touchesProbe i = true) : i = .probe ∨ i = .probescan := by
  unfold touchesProbe at h
  split at h
  · exact .inl rfl
  · exact .inr rfl
  · cases h

/-- Settles O12: an instruction never writes the host's group, and `PROBE_OFF` only if it runs the probe. -/
theorem hostRegistersKept : Obligations.HostRegistersKept := by
  intro i s t h
  have hpath := (exec_run h).path
  have hhost : ¬WithSeq (BodyWrites i) .host := withSeq_not nofun id
  have hcfg := hpath.hostPart_eq hhost
  simp only [CfgRegs.hostPart, CfgRegs.mk.injEq] at hcfg
  obtain ⟨hstreams, hpack, hwindow, hlate, -⟩ := hcfg
  refine ⟨hstreams, hpack, hwindow, hlate, fun hprobe hscan => ?_⟩
  refine hpath.probeOff_eq hhost (withSeq_not nofun fun hw => ?_)
  exact (touchesProbe_eq hw).elim hprobe hscan

theorem not_touchesContinuity {i : Instr} (h1 : i ≠ .readFrame) (h2 : i ≠ .metadata) (h3 : i ≠ .timecode)
    (h4 : i ≠ .continuityInvalidate) (h5 : ∀ b, i ≠ .tcblock b) (h6 : ∀ idx df, i ≠ .continuityUpdate idx df) :
    ¬touchesContinuity i = true := by
  intro h
  unfold touchesContinuity at h
  split at h
  exacts [h1 rfl, h2 rfl, h3 rfl, h4 rfl, h5 _ rfl, h6 _ _ rfl, nomatch h]

theorem not_touchesText {i : Instr} (h1 : i ≠ .readFrame) (h2 : i ≠ .progmeta) (h3 : ∀ p c b, i ≠ .pmeta p c b)
    (h4 : ∀ p, i ≠ .nul p) (h5 : ∀ p, i ≠ .stx p) (h6 : ∀ p, i ≠ .etx p) (h7 : ∀ p c, i ≠ .print p c)
    (h8 : ∀ p c, i ≠ .charOther p c) (h9 : ∀ p c, i ≠ .descchar p c) : ¬touchesText i = true := by
  intro h
  unfold touchesText at h
  split at h
  exacts [h1 rfl, h2 rfl, h3 _ _ _ rfl, h4 _ rfl, h5 _ rfl, h6 _ rfl, h7 _ _ rfl, h8 _ _ rfl, h9 _ _ rfl, nomatch h]

/-- Settles O13: an instruction writes a cross-frame group only if it is one of the group's writers. -/
theorem crossFrameWriters : Obligations.CrossFrameWriters := by
  intro i s t h
  have hpath := (exec_run h).path
  constructor
  · intro h1 h2 h3 h4 h5 h6
    exact hpath.cont_eq (withSeq_not nofun (not_touchesContinuity h1 h2 h3 h4 h5 h6))
  · intro h1 h2 h3 h4 h5 h6 h7 h8 h9
    exact hpath.desc_eq (withSeq_not nofun (not_touchesText h1 h2 h3 h4 h5 h6 h7 h8 h9))

end Sys2Proof.Machine
end

section
/-! PROOF. How a step dispatches: which request it serves, which instruction the state's code decodes to, and what the
host port answers. -/

namespace Sys2Proof.Machine

section
variable {s t : State} {r : Request} {rest : List Request} {i : Instr} {c : Code}

/-! ### The port -/

theorem step_of_empty (hp : s.port = []) : step s = runState s := by rw [step, stepOnce, hp]

/-- A register access or seek is served in any state (10_state R45). -/
theorem step_of_access (hp : s.port = r :: rest) (ha : r.isAccess = true) : step s = serve r (s.setPort rest) := by
  rw [step, stepOnce, hp]
  simp [ha]

/-- Every request is served in `IDLE` (70_reset R330). -/
theorem step_of_idle (hp : s.port = r :: rest) (hst : s.seq.ST = .idle) : step s = serve r (s.setPort rest) := by
  rw [step, stepOnce, hp]
  simp [hst]

/-- Any other request waits while a state runs (70_reset R330). -/
theorem step_of_waiting (hp : s.port = r :: rest) (ha : r.isAccess = false) (hst : s.seq.ST ≠ .idle) :
    step s = runState s := by
  rw [step, stepOnce, hp]
  simp [ha, hst]

/-! ### Decoding what runs -/

theorem runCode_of_decode (hc : decode s.par c = .ok i) : runCode c s = exec i s := by rw [runCode, hc]

theorem recogniseUnit_of_fetch {slot : Slot} (hf : fetchUnit slot s = .ok c t) : recogniseUnit slot s = runCode c t := by
  rw [recogniseUnit, hf]

/-- Only the state BURSTINFO has the code of that instruction (10_state R26). -/
theorem decode_state_burstinfo_iff {par : Params} {st : SeqState} (h : decode par ⟨.state, 4, st.code.toNat⟩ = .ok i) :
    st = .burstinfo ↔ i = .burstinfo := by
  cases st with
  | unused => cases h
  | burstinfo => cases h; simp
  | _ => cases h; simp

/-- Nothing follows the operation of another state (log 27). -/
theorem betweenStates_other {st : SeqState} (h : st ≠ .burstinfo) (r : Result) : betweenStates st r = r := by
  cases r with
  | next u => rw [betweenStates, if_neg fun hc => h hc.1]
  | fault f => rfl
  | refused q => rfl

/-- What follows the state BURSTINFO (41_burst R164; log 27). -/
theorem betweenStates_burstinfo (u : State) :
    betweenStates .burstinfo (.next u) = if u.seq.ST = .sync then passBurst u else .next u := by
  rw [betweenStates]
  simp

/-! ### BURSTINFO never stops -/

/-- A header word is there, or its error is raised (41_burst R168). -/
theorem headerWord_cases (k : BitVec 2) (s : State) :
    (∃ w u, headerWord k s = .ok w u) ∨ ∃ u, headerWord k s = .error (.raised (.atHeader k)) u := by
  rw [headerWord_run]
  split_ifs
  · exact .inl ⟨_, _, rfl⟩
  · exact .inr ⟨_, rfl⟩

/-- `BURSTINFO` ends, or raises the error of a missing word (41_burst R168). -/
theorem burstinfoOp_cases (s : State) :
    (∃ u, burstinfoOp s = .ok () u) ∨ ∃ e u, burstinfoOp s = .error (.raised e) u := by
  rcases headerWord_cases 2 s with ⟨a, u, ha⟩ | ⟨u, ha⟩
  · rcases headerWord_cases 3 u with ⟨b, v, hb⟩ | ⟨v, hb⟩
    · rw [burstinfoOp, op_bind_ok ha, op_bind_ok hb, op_bind_ok (burstWord2_run _ v), burstWord1_run]
      exact .inl ⟨_, rfl⟩
    · rw [burstinfoOp, op_bind_ok ha, op_bind_error hb]
      exact .inr ⟨_, _, rfl⟩
  · rw [burstinfoOp, op_bind_error ha]
    exact .inr ⟨_, _, rfl⟩

theorem enter_entered (st : SeqState) (s : State) : enter st s = .ok () (s.entered st) := rfl

theorem exec_burstinfo_next (s : State) : ∃ t, exec .burstinfo s = .next t := by
  show ∃ t, runOp (seqStep .burstinfo burstinfoOp .sync) s = .next t
  rcases burstinfoOp_cases (s.entered .burstinfo) with ⟨u, hu⟩ | ⟨e, u, hu⟩
  · exact ⟨_, runOp_ok (by rw [seqStep, op_bind_ok (enter_entered _ s), op_bind_ok hu, enter_entered])⟩
  · exact ⟨_, runOp_raised (by rw [seqStep, op_bind_ok (enter_entered _ s), op_bind_error hu])⟩

/-! ### What the host reads -/

theorem cfgWord_toNat (c : CfgRegs) : c.cfgWord.toNat = c.STREAMS2.toNat + 2 * c.PACK3.toNat := by
  cases hp : c.PACK3 <;> cases hs : c.STREAMS2 <;> simp [CfgRegs.cfgWord, hp, hs]

/-- The bits of the `STATUS` word, field by field from below (10_state R30). -/
theorem statusWord_getLsbD (q : Sequencer) (k : Nat) : q.statusWord.getLsbD k =
    if k < 1 then (BitVec.ofBool q.BUSY).getLsbD k
    else if k - 1 < 1 then (BitVec.ofBool q.DONE).getLsbD (k - 1)
    else if k - 1 - 1 < 3 then q.ERRK.getLsbD (k - 1 - 1)
    else if k - 1 - 1 - 3 < 4 then q.ERRS.getLsbD (k - 1 - 1 - 3)
    else if k - 1 - 1 - 3 - 4 < 4 then q.ERRST.getLsbD (k - 1 - 1 - 3 - 4)
    else false := by
  show (0#19 ++ q.ERRST ++ q.ERRS ++ q.ERRK ++ BitVec.ofBool q.DONE ++ BitVec.ofBool q.BUSY :
    BitVec (19 + 4 + 4 + 3 + 1 + 1)).getLsbD k = _
  simp only [BitVec.getLsbD_append, BitVec.getLsbD_zero]

/-- The fields of `STATUS` in its word (10_state R30). -/
theorem statusWord_fields (q : Sequencer) :
    q.statusWord.getLsbD 0 = q.BUSY ∧ q.statusWord.getLsbD 1 = q.DONE ∧ q.statusWord.extractLsb' 2 3 = q.ERRK ∧
      q.statusWord.extractLsb' 5 4 = q.ERRS ∧ q.statusWord.extractLsb' 9 4 = q.ERRST ∧
      q.statusWord.extractLsb' 13 19 = 0 := by
  refine ⟨?_, ?_, ?_, ?_, ?_, ?_⟩
  · rw [statusWord_getLsbD]
    cases q.BUSY <;> rfl
  · rw [statusWord_getLsbD]
    cases q.DONE <;> rfl
  · ext k hk
    rw [BitVec.getElem_extractLsb', statusWord_getLsbD, if_neg (by omega), if_neg (by omega), if_pos (by omega),
      show 2 + k - 1 - 1 = k by omega, BitVec.getLsbD_eq_getElem hk]
  · ext k hk
    rw [BitVec.getElem_extractLsb', statusWord_getLsbD, if_neg (by omega), if_neg (by omega), if_neg (by omega),
      if_pos (by omega), show 5 + k - 1 - 1 - 3 = k by omega, BitVec.getLsbD_eq_getElem hk]
  · ext k hk
    rw [BitVec.getElem_extractLsb', statusWord_getLsbD, if_neg (by omega), if_neg (by omega), if_neg (by omega),
      if_neg (by omega), if_pos (by omega), show 9 + k - 1 - 1 - 3 - 4 = k by omega, BitVec.getLsbD_eq_getElem hk]
  · ext k hk
    rw [BitVec.getElem_extractLsb', statusWord_getLsbD, if_neg (by omega), if_neg (by omega), if_neg (by omega),
      if_neg (by omega), if_neg (by omega)]
    simp

end

/-! ### Obligations -/

/-- Settles O3: the words are closed terms, which the decoder evaluates to the instructions listed. -/
theorem decodeWords : Obligations.DecodeWords := by
  unfold Obligations.DecodeWords
  decide

/-- A step that runs a state's operation, by the instruction its code decodes to (10_state R26). -/
theorem runState_of_decode {s : State} {i : Instr} (hd : decode s.par ⟨.state, 4, s.seq.ST.code.toNat⟩ = .ok i) :
    (i ≠ .burstinfo → runState s = exec i s) ∧
      (i = .burstinfo → ∃ t, exec .burstinfo s = .next t ∧ (t.seq.ST = .sync → runState s = passBurst t) ∧
        (t.seq.ST ≠ .sync → runState s = .next t)) := by
  have hiff := decode_state_burstinfo_iff hd
  have hrun : runState s = betweenStates s.seq.ST (exec i s) := by rw [runState, runCode_of_decode hd]
  constructor
  · intro hi
    rw [hrun, betweenStates_other (mt hiff.mp hi)]
  · intro hi
    obtain ⟨t, ht⟩ := exec_burstinfo_next s
    rw [hi, hiff.mpr hi, ht, betweenStates_burstinfo] at hrun
    exact ⟨t, ht, fun hsync => by rw [hrun, if_pos hsync], fun hsync => by rw [hrun, if_neg hsync]⟩

/-- Settles O4: each clause is one way a step selects what it runs. -/
theorem stepRunsDecoded : Obligations.StepRunsDecoded := by
  refine ⟨fun s i hp hd => ?_, fun s i v rest hp hd => ?_, fun s t i slot u rest hp hst hf hd => ?_,
    fun s i rest hp hst => ?_⟩
  · have hstep : step s = runState s := by
      rcases hp with hp | ⟨r, rest, hp, ha, hst⟩
      · exact step_of_empty hp
      · exact step_of_waiting hp ha hst
    rw [hstep]
    exact runState_of_decode hd
  · rw [step_of_access hp rfl]
    exact runCode_of_decode (s := s.setPort rest) hd
  · rw [step_of_idle hp hst]
    exact (recogniseUnit_of_fetch hf).trans (runCode_of_decode hd)
  · exact step_of_idle hp hst

/-! ### The registers the host writes and reads (10_state R30 to R32) -/

section
variable {f : State → State} {s : State}

theorem hostSet_idle (h : s.seq.BUSY = false) : hostSet f s = .next (f s) := by
  rw [hostSet, h]
  rfl

theorem hostSet_busy (h : s.seq.BUSY = true) : hostSet f s = .refused .hostWhileBusy := by
  rw [hostSet, h]
  rfl

theorem hostWrite_cfg (v : BitVec 32) : hostWrite 1 v s =
    hostSet (fun s => s.setCfg { s.cfg with STREAMS2 := v.getLsbD 0, PACK3 := v.getLsbD 1 }) s := rfl

theorem hostWrite_probeWindow (v : BitVec 32) :
    hostWrite 2 v s = hostSet (fun s => s.setCfg { s.cfg with PROBE_WINDOW := v }) s := rfl

theorem hostWrite_probeLate (v : BitVec 32) :
    hostWrite 3 v s = hostSet (fun s => s.setCfg { s.cfg with PROBE_LATE := v }) s := rfl

theorem hostWrite_busy {n : Nat} (h1 : 1 ≤ n) (h3 : n ≤ 3) (h : s.seq.BUSY = true) (v : BitVec 32) :
    hostWrite n v s = .refused .hostWhileBusy := by
  obtain rfl | rfl | rfl : n = 1 ∨ n = 2 ∨ n = 3 := by omega
  · rw [hostWrite_cfg, hostSet_busy h]
  · rw [hostWrite_probeWindow, hostSet_busy h]
  · rw [hostWrite_probeLate, hostSet_busy h]

theorem hostWrite_unknown {n : Nat} (h : 6 ≤ n) (v : BitVec 32) : hostWrite n v s = .refused (.hostRegister n) := by
  obtain ⟨k, rfl⟩ := Nat.exists_eq_add_of_le' h
  rfl

theorem hostRead_unknown {n : Nat} (h : 6 ≤ n) : hostRead n s = .refused (.hostRegister n) := by
  obtain ⟨k, rfl⟩ := Nat.exists_eq_add_of_le' h
  rfl

theorem hostSeek_inside {pos : Nat} (hb : s.seq.BUSY = false) (h : pos ≤ s.src.MEM.len) :
    hostSeek pos s = .next (s.setSrc { s.src with POS := pos }) := by
  rw [hostSeek, if_neg (by simp [hb]), if_pos h]

theorem hostSeek_outside {pos : Nat} (hb : s.seq.BUSY = false) (h : s.src.MEM.len < pos) :
    hostSeek pos s = .refused (.seekOutside pos) := by
  rw [hostSeek, if_neg (by simp [hb]), if_neg (by omega)]

theorem hostSeek_busy (pos : Nat) (hb : s.seq.BUSY = true) : hostSeek pos s = .refused .hostWhileBusy := by
  rw [hostSeek, if_pos hb]

end

/-- The writes of the host port. -/
theorem step_write (s : State) (v : BitVec 32) (rest : List Request) :
    (s.port = .write 0 v :: rest → step s = .next (s.setPort rest)) ∧
    (s.port = .write 4 v :: rest → step s = .next (s.setPort rest)) ∧
    (s.seq.BUSY = false → s.port = .write 1 v :: rest → step s = .next ((s.setPort rest).setCfg
      { s.cfg with STREAMS2 := v.getLsbD 0, PACK3 := v.getLsbD 1 })) ∧
    (s.seq.BUSY = false → s.port = .write 2 v :: rest →
      step s = .next ((s.setPort rest).setCfg { s.cfg with PROBE_WINDOW := v })) ∧
    (s.seq.BUSY = false → s.port = .write 3 v :: rest →
      step s = .next ((s.setPort rest).setCfg { s.cfg with PROBE_LATE := v })) ∧
    (∀ n, 1 ≤ n → n ≤ 3 → s.seq.BUSY = true → s.port = .write n v :: rest → step s = .refused .hostWhileBusy) ∧
    (∀ n, 6 ≤ n → s.port = .write n v :: rest → step s = .refused (.hostRegister n)) := by
  have hserve : ∀ n, s.port = .write n v :: rest → step s = hostWrite n v (s.setPort rest) :=
    fun _ hp => step_of_access hp rfl
  refine ⟨fun hp => hserve 0 hp, fun hp => hserve 4 hp, fun hb hp => ?_, fun hb hp => ?_, fun hb hp => ?_,
    fun n h1 h3 hb hp => ?_, fun n h6 hp => ?_⟩
  · rw [hserve 1 hp, hostWrite_cfg]
    exact hostSet_idle hb
  · rw [hserve 2 hp, hostWrite_probeWindow]
    exact hostSet_idle hb
  · rw [hserve 3 hp, hostWrite_probeLate]
    exact hostSet_idle hb
  · rw [hserve n hp]
    exact hostWrite_busy h1 h3 (s := s.setPort rest) hb v
  · rw [hserve n hp]
    exact hostWrite_unknown h6 v

/-- Settles O60: each clause is one register's arm of the port. -/
theorem hostPort : Obligations.HostPort := by
  refine ⟨step_write, fun s rest => ?_⟩
  have hread : ∀ n, s.port = .read n :: rest → step s = hostRead n (s.setPort rest) :=
    fun _ hp => step_of_access hp rfl
  have hseek : ∀ pos, s.port = .seek pos :: rest → step s = hostSeek pos (s.setPort rest) :=
    fun _ hp => step_of_access hp rfl
  refine ⟨fun hp => ⟨_, hread 0 hp, statusWord_fields s.seq⟩, fun hp => ?_, fun hp => hread 2 hp, fun hp => hread 3 hp,
    fun hp => hread 4 hp, fun hp => hread 5 hp, fun n h6 hp => (hread n hp).trans (hostRead_unknown h6),
    fun pos hp => ⟨fun hb h => ?_, fun hb h => ?_, fun hb => ?_⟩⟩
  · rw [← cfgWord_toNat]
    exact hread 1 hp
  · exact (hseek pos hp).trans (hostSeek_inside hb h)
  · exact (hseek pos hp).trans (hostSeek_outside hb h)
  · exact (hseek pos hp).trans (hostSeek_busy pos hb)

end Sys2Proof.Machine
end

section
/-! PROOF. `READ_FRAME` in single states. A sequencer state run by itself ends by writing its successor, and the rest of
the command begins by entering that state again; so the steps from one state on do what the rest of the command does
(`Continues`), one state after another from `COMPLETE` back to `PREAMBLE`. -/

namespace Sys2Proof.Machine

/-- The groups that a step of `READ_FRAME` may write: all but the host's. -/
def NotHost (g : Group) : Prop := g ≠ .host

/-- The groups that the operation of a sequencer state may write: not `ST`, `STATUS` and the host's. -/
def StateBody (g : Group) : Prop := g ≠ .host ∧ g ≠ .seq

/-- From `st`, `n` steps with nothing at the port do what a command does that enters `st` and goes on with `rest`. -/
def Continues (n : Nat) (st : SeqState) (rest : Op Unit) : Prop :=
  ∀ s : State, s.seq.ST = st → s.port = [] → stepMany n s = runOp (enter st >>= fun _ => rest) s

section
variable {s t u : State} {st next : SeqState} {body rest : Op Unit} {n : Nat}

/-! ### Entering a state -/

theorem entered_entered (s : State) (st next : SeqState) : (s.entered st).entered next = s.entered next := rfl

theorem entered_of_seq (h : u.seq = (s.entered st).seq) : u.entered st = u := by
  show u.setSeq { u.seq with ST := st, BUSY := true } = u
  rw [h]
  show u.setSeq (s.entered st).seq = u
  rw [← h, State.setSeq_same]

theorem runOp_enter (s : State) (st : SeqState) (rest : Op Unit) :
    runOp (enter st >>= fun _ => rest) s = runOp rest (s.entered st) := by
  rw [runOp, op_bind_ok (enter_entered st s), runOp]

/-- What runs after a part that ends. -/
theorem runOp_bind_ok {α : Type} {x : Op α} {f : α → Op Unit} {a : α} (h : x s = .ok a t) :
    runOp (x >>= f) s = runOp (f a) t := by
  rw [runOp, op_bind_ok h, runOp]

/-! ### Single steps -/

theorem stepMany_next (h : step s = .next t) : stepMany (n + 1) s = stepMany n t := by rw [stepMany, h]

/-- The operation of a state, with nothing at the port. -/
theorem step_state {i : Instr} (hst : s.seq.ST = st) (hp : s.port = [])
    (hd : decode s.par ⟨.state, 4, st.code.toNat⟩ = .ok i) (hi : i ≠ .burstinfo) : step s = exec i s := by
  subst hst
  rw [step_of_empty hp, (runState_of_decode hd).1 hi]

theorem step_idle (hst : s.seq.ST = .idle) (hp : s.port = []) : step s = .next s :=
  step_state hst hp (i := .idle) rfl nofun

theorem stepMany_idle (hst : s.seq.ST = .idle) (hp : s.port = []) : ∀ n : Nat, stepMany n s = .next s
  | 0 => rfl
  | n + 1 => (stepMany_next (step_idle hst hp)).trans (stepMany_idle hst hp n)

/-- The step at BURSTINFO runs the state's operation and `READ_FRAME`'s tests as one operation (41_burst R164; log 27). -/
theorem step_burstinfo (hst : s.seq.ST = .burstinfo) (hp : s.port = []) :
    step s = runOp (seqStep .burstinfo (burstinfoOp >>= fun _ => acceptBurst) .sync) s := by
  have hd : decode s.par ⟨.state, 4, s.seq.ST.code.toNat⟩ = .ok .burstinfo := by rw [hst]; rfl
  obtain ⟨t, ht, hpass, hstop⟩ := (runState_of_decode hd).2 rfl
  rw [step_of_empty hp]
  change runOp (enter .burstinfo >>= fun _ => burstinfoOp >>= fun _ => enter .sync) s = .next t at ht
  rw [runOp_enter] at ht
  rw [seqStep, runOp_enter, bind_assoc]
  rcases burstinfoOp_cases (s.entered .burstinfo) with ⟨u, hu⟩ | ⟨e, u, hu⟩
  · have hu' : u.entered .burstinfo = u :=
      entered_of_seq (Path.seq_eq (burstinfoOp_moves (gs := StateBody).ok hu) fun h => h.2 rfl)
    rw [runOp_bind_ok hu] at ht ⊢
    cases ht
    rw [hpass rfl]
    show runOp (seqStep .burstinfo acceptBurst .sync) (u.entered .sync) = _
    rw [seqStep, runOp_enter, entered_entered, hu']
  · have ht' : t = u.latch e := by
      rw [runOp_raised (op_bind_error hu)] at ht
      cases ht
      rfl
    subst ht'
    rw [hstop (by simp), runOp_raised (op_bind_error hu)]

/-! ### From one state to the next -/

/-- A step that runs a state's operation, and the steps after it. -/
theorem stepMany_seqStep (hp : s.port = []) (hstep : step s = runOp (seqStep st body next) s)
    (hb : Moves StateBody s.par body)
    (hrest : ∀ u, body (s.entered st) = .ok () u → stepMany n (u.entered next) = runOp rest u) :
    stepMany (n + 1) s = runOp (enter st >>= fun _ => body >>= fun _ => rest) s := by
  rw [stepMany, hstep, seqStep, runOp_enter, runOp_enter]
  cases hr : body (s.entered st) with
  | ok a u =>
    rw [runOp_bind_ok hr, runOp_bind_ok hr, ← hrest u hr]
    rfl
  | error e u =>
    have hport : u.port = [] := (hb.error (s := s.entered st) hr).port_eq (fun h => h.1 rfl) |>.trans hp
    cases e with
    | raised e =>
      rw [runOp_raised (op_bind_error hr), runOp_raised (op_bind_error hr)]
      exact stepMany_idle (s := u.latch e) rfl hport n
    | refused r => rw [runOp_refused (op_bind_error hr), runOp_refused (op_bind_error hr)]
    | faulted f => rw [runOp_faulted (op_bind_error hr), runOp_faulted (op_bind_error hr)]

/-- The steps after a state's operation begin by entering the successor, where they stand already. -/
theorem Continues.resume (hc : Continues n next rest) (hp : u.port = []) :
    stepMany n (u.entered next) = runOp (enter next >>= fun _ => rest) u := by
  rw [hc (u.entered next) rfl hp, runOp_enter, runOp_enter, entered_entered]

/-- One state before the rest of the command. -/
theorem Continues.before (hc : Continues n next rest)
    (hstep : ∀ s : State, s.seq.ST = st → s.port = [] → step s = runOp (seqStep st body next) s)
    (hb : ∀ P, Moves StateBody P body) : Continues (n + 1) st (body >>= fun _ => enter next >>= fun _ => rest) := by
  intro s hst hp
  refine stepMany_seqStep hp (hstep s hst hp) (hb _) fun u hu => hc.resume ?_
  exact ((hb _).ok (s := s.entered st) hu).port_eq (fun h => h.1 rfl) |>.trans hp

/-- One state that is an instruction of its own, before the rest of the command. -/
theorem Continues.beforeState (hc : Continues n next rest) {i : Instr}
    (hd : ∀ par, decode par ⟨.state, 4, st.code.toNat⟩ = .ok i) (hi : i ≠ .burstinfo)
    (he : ∀ s, exec i s = runOp (seqStep st body next) s) (hb : ∀ P, Moves StateBody P body) :
    Continues (n + 1) st (body >>= fun _ => enter next >>= fun _ => rest) :=
  hc.before (fun s hst hp => (step_state hst hp (hd s.par) hi).trans (he s)) hb

/-- The last state, after which the steps stand still. -/
theorem continues_complete (n : Nat) : Continues (n + 1) .complete (completeOp >>= fun _ => finishCmd) := by
  intro s hst hp
  have hstep : step s = runOp (lastStep .complete completeOp) s := step_state hst hp (i := .complete) rfl nofun
  have hm : Moves NotHost s.par (lastStep .complete completeOp) := lastStep_moves nofun nofun completeOp_moves
  rw [stepMany, hstep]
  show _ = runOp (lastStep .complete completeOp) s
  cases hr : lastStep .complete completeOp s with
  | ok a u =>
    have hidle : u.seq.ST = .idle := by
      obtain ⟨_, _, _, hrest⟩ := op_bind_eq_ok hr
      obtain ⟨_, v, _, hlast⟩ := op_bind_eq_ok hrest
      cases (show EStateM.Result.ok () v.finished = .ok a u from hlast)
      rfl
    rw [runOp_ok hr]
    exact stepMany_idle hidle ((hm.ok hr).port_eq (fun h => h rfl) |>.trans hp) n
  | error e u =>
    have hport : u.port = [] := (hm.error hr).port_eq (fun h => h rfl) |>.trans hp
    cases e with
    | raised e =>
      rw [runOp_raised hr]
      exact stepMany_idle (s := u.latch e) rfl hport n
    | refused r => rw [runOp_refused hr]
    | faulted f => rw [runOp_faulted hr]

theorem continues_meter (n : Nat) :
    Continues (n + 2) .meter (meterOp >>= fun _ => enter .complete >>= fun _ => completeOp >>= fun _ => finishCmd) :=
  (continues_complete n).beforeState (i := .meter) (fun _ => rfl) nofun (fun _ => rfl) fun _ => meterOp_moves

theorem continues_extsubseg (hc : Continues n .meter rest) :
    Continues (n + 2) .extsubseg (extsubsegOp >>= fun _ => enter .audioext >>= fun _ => audioextOp >>= fun _ =>
      enter .meter >>= fun _ => rest) :=
  (hc.beforeState (i := .audioext) (fun _ => rfl) nofun (fun _ => rfl) fun _ => audioHalves_moves _ _).beforeState
    (i := .extsubseg) (fun _ => rfl) nofun (fun _ => rfl) fun _ => extsubsegOp_moves ⟨nofun, nofun⟩

/-- `AUDIO`, and the extension states if `LFR = 1`; the operation of the state leaves `LFR` as it was (10_state R27). -/
theorem continues_audio (hm : Continues n .meter rest)
    (hx : Continues n .extsubseg (extsubsegOp >>= fun _ => enter .audioext >>= fun _ => audioextOp >>= fun _ =>
      enter .meter >>= fun _ => rest)) :
    Continues (n + 1) .audio (audioOp >>= fun _ => get >>= fun s => whenOp s.fr.LFR extensionStates >>= fun _ =>
      enter .meter >>= fun _ => rest) := by
  intro s hst hp
  have hstep : step s = exec .audio s := step_state hst hp rfl nofun
  have hb : ∀ gs P, Moves gs P audioOp := fun _ _ => audioHalves_moves _ _
  refine stepMany_seqStep hp (next := if s.fr.LFR then .extsubseg else .meter) hstep (hb _ _) fun u hu => ?_
  have hpath : Path (fun _ => False) (s.entered .audio) u := (hb _ _).ok hu
  have hport : u.port = [] := (hpath.port_eq id).trans hp
  have hlfr : u.fr.LFR = s.fr.LFR := congrArg FrameRegs.LFR (hpath.fr_eq id)
  rw [runOp_bind_ok (op_get u), hlfr]
  cases s.fr.LFR with
  | false => exact hm.resume hport
  | true =>
    rw [whenOp_true, extensionStates]
    simp only [bind_assoc]
    exact hx.resume hport

/-- All states of `READ_FRAME` from the first. -/
theorem continues_preamble :
    Continues 13 .preamble (preambleOp >>= fun _ => enter .burstinfo >>= fun _ =>
      (burstinfoOp >>= fun _ => acceptBurst) >>= fun _ => enter .sync >>= fun _ => syncOp >>= fun _ =>
      enter .metadata >>= fun _ => metadataOp >>= fun _ => enter .framedist >>= fun _ => framedistOp >>= fun _ =>
      enter .progmeta >>= fun _ => progmetaOp >>= fun _ => enter .chanmeta >>= fun _ => chanmetaOp >>= fun _ =>
      enter .mdsubseg >>= fun _ => mdsubsegOp >>= fun _ => enter .audio >>= fun _ => audioOp >>= fun _ =>
      get >>= fun s => whenOp s.fr.LFR extensionStates >>= fun _ => enter .meter >>= fun _ => meterOp >>= fun _ =>
      enter .complete >>= fun _ => completeOp >>= fun _ => finishCmd) := by
  have haudio := continues_audio (continues_meter 2) (continues_extsubseg (continues_meter 0))
  have hframe : StateBody .frame := ⟨nofun, nofun⟩
  have hmdsubseg := haudio.beforeState (st := .mdsubseg) (i := .mdsubseg) (fun _ => rfl) nofun (fun _ => rfl)
    fun _ => mdsubsegOp_moves hframe
  have hchanmeta := hmdsubseg.beforeState (st := .chanmeta) (i := .chanmeta) (fun _ => rfl) nofun (fun _ => rfl)
    fun _ => chanmetaOp_moves
  have hprogmeta := hchanmeta.beforeState (st := .progmeta) (i := .progmeta) (fun _ => rfl) nofun (fun _ => rfl)
    fun _ => progmetaOp_moves ⟨nofun, nofun⟩
  have hframedist := hprogmeta.beforeState (st := .framedist) (i := .framedist) (fun _ => rfl) nofun (fun _ => rfl)
    fun _ => framedistOp_moves hframe
  have hmetadata := hframedist.beforeState (st := .metadata) (i := .metadata) (fun _ => rfl) nofun (fun _ => rfl)
    fun _ => metadataOp_moves hframe ⟨nofun, nofun⟩
  have hsync := hmetadata.beforeState (st := .sync) (i := .sync) (fun _ => rfl) nofun (fun _ => rfl)
    fun _ => syncOp_moves
  have hburstinfo := hsync.before (st := .burstinfo) (fun _ hst hp => step_burstinfo hst hp)
    fun _ => .bind burstinfoOp_moves fun _ => acceptBurst_moves hframe
  exact hburstinfo.beforeState (i := .preamble) (fun _ => rfl) nofun (fun _ => rfl) fun _ => preambleOp_moves

end

/-- The request that begins `READ_FRAME` in single states (log 7). -/
theorem step_stepped {s : State} (hst : s.seq.ST = .idle) (hb : s.seq.BUSY = false) :
    step (s.setPort [.stepped 1#3]) = runOp (beginCmd >>= fun _ => enter .preamble) (s.setPort []) := by
  have hserve := step_of_idle (s := s.setPort [.stepped 1#3]) rfl hst
  rw [hserve]
  show beginStepped 1#3 (s.setPort []) = _
  rw [beginStepped, if_neg (by simp [hb]), if_pos rfl]

/-- `READ_FRAME` to its end, from a state where no command runs (41_burst R160). -/
theorem exec_readFrame {s : State} (hb : s.seq.BUSY = false) :
    exec .readFrame s = runOp (beginCmd >>= fun _ => readFrameOp >>= fun _ => finishCmd) s := by
  show runCommand readFrameOp s = _
  rw [runCommand, if_neg (by simp [hb])]

/-- Settles O5: the first step begins the command, and the states from `PREAMBLE` on do the rest of it. -/
theorem steppedIsWhole : Obligations.SteppedIsWhole := by
  intro s hst hb
  obtain ⟨b, hbegin, hport⟩ : ∃ b, beginCmd (s.setPort []) = .ok () b ∧ b.port = [] := ⟨_, rfl, rfl⟩
  have hfirst : step (s.setPort [.stepped 1#3]) = .next (b.entered .preamble) := by
    rw [step_stepped hst hb, runOp_bind_ok hbegin]
    rfl
  rw [stepMany_next hfirst, continues_preamble.resume hport, exec_readFrame (s := s.setPort []) hb,
    runOp_bind_ok hbegin, readFrameOp]
  simp only [bind_assoc]

end Sys2Proof.Machine
end

section
/-! PROOF. The stream and the Sample Source (20_memory): the bytes of a word, where `SrcAlign` goes, and what `PREAMBLE` and
one turn of the probe do at a word that is no preamble. With three-byte words the most significant byte of every word is
zero, so that is the only kind of word there is (log 18). -/

namespace Sys2Proof.Machine

/-! ### The bytes of a word -/

/-- The first byte is the least significant one, the rest stands above it (20_memory R69). -/
theorem wordOfBytes_cons_getLsbD (b : Byte) (bs : List Byte) {i : Nat} (hi : i < 32) :
    (wordOfBytes (b :: bs)).getLsbD i = if i < 8 then b.getLsbD i else (wordOfBytes bs).getLsbD (i - 8) := by
  rw [wordOfBytes, BitVec.getLsbD_or, BitVec.getLsbD_setWidth, BitVec.getLsbD_shiftLeft]
  split_ifs with h8
  · simp [hi, h8]
  · simp [hi, h8, BitVec.getLsbD_of_ge b i (by omega)]

/-- Byte `j` of a word is the `j`th byte it is made of, 0 if there is none (20_memory R63, R69). -/
theorem wordOfBytes_byte : ∀ (bs : List Byte) {j : Nat}, j < 4 →
    (wordOfBytes bs).extractLsb' (8 * j) 8 = (bs[j]?).getD 0
  | [], _, _ => by
    apply BitVec.eq_of_getLsbD_eq
    simp [wordOfBytes]
  | b :: bs, 0, _ => by
    apply BitVec.eq_of_getLsbD_eq
    intro k hk
    rw [BitVec.getLsbD_extractLsb', wordOfBytes_cons_getLsbD b bs (by omega)]
    simp [hk]
  | b :: bs, j + 1, hj => by
    rw [List.getElem?_cons_succ, ← wordOfBytes_byte bs (by omega : j < 4)]
    apply BitVec.eq_of_getLsbD_eq
    intro k hk
    have hpast : ¬8 * (j + 1) + k < 8 := by omega
    have hback : 8 * (j + 1) + k - 8 = 8 * j + k := by omega
    rw [BitVec.getLsbD_extractLsb', wordOfBytes_cons_getLsbD b bs (by omega), BitVec.getLsbD_extractLsb', if_neg hpast,
      hback]

section
variable {s : State}

/-- A word of the stream, byte by byte; a three-byte word has no byte 3 (20_memory R63). -/
theorem wordAt_byte (s : State) (i : Nat) {j : Nat} (hj : j < 4) :
    (s.wordAt i).extractLsb' (8 * j) 8
      = if j < s.sampleBytes then s.src.MEM.byteAt (s.src.POS + i * s.sampleBytes + j) else 0 := by
  rw [State.wordAt, wordOfBytes_byte _ hj, Memory.bytesFrom_eq, List.getElem?_map]
  split_ifs with h
  · rw [List.getElem?_range h]
    rfl
  · rw [List.getElem?_eq_none (by simpa using h)]
    rfl

theorem sampleBytes_pack3 (hp : s.cfg.PACK3 = true) : s.sampleBytes = 3 := by rw [State.sampleBytes, if_pos hp]

/-- Every preamble word 1 has a nonzero most significant byte (30_encoding R93). -/
theorem preamble1_highByte (d : Depth) : d.preamble1.extractLsb' (8 * 3) 8 ≠ 0 := by cases d <;> decide

/-- A word that is no preamble word 1 of any depth. -/
theorem preamble1Depth_eq_none {w : Word} (h : ∀ d : Depth, w ≠ d.preamble1) : preamble1Depth w = none := by
  rw [preamble1Depth, if_neg (h .d16), if_neg (h .d20), if_neg (h .d24)]

/-- Under three-byte words no word is a preamble word 1 (90_conflicts C3 read literally; log 18). -/
theorem preamble1Depth_pack3 (hp : s.cfg.PACK3 = true) (i : Nat) : preamble1Depth (s.wordAt i) = none := by
  have hhigh : (s.wordAt i).extractLsb' (8 * 3) 8 = 0 := by
    rw [wordAt_byte s i (by decide), sampleBytes_pack3 hp, if_neg (by decide)]
  exact preamble1Depth_eq_none fun d he => preamble1_highByte d (he ▸ hhigh)

/-! ### A word that is no preamble -/

/-- One unit read is one unit forward (20_memory R63). -/
theorem srcReadWordOp_wordAt (s : State) :
    srcReadWordOp s =
      if s.src.POS + s.sampleBytes ≤ s.src.MEM.len then .ok (some (s.wordAt 0)) (s.advanced s.sampleBytes)
      else .ok none s := by
  rw [srcReadWordOp_run, State.wordAt, Nat.zero_mul, Nat.add_zero]
  rfl

/-- `PREAMBLE` at the end of the stream (41_burst R167). -/
theorem preambleOp_end (hlen : ¬s.src.POS + s.sampleBytes ≤ s.src.MEM.len) :
    preambleOp s = .error (.raised (.atHeader 0)) s := by
  rw [preambleOp, op_bind_error (by rw [headerWord_run, if_neg hlen])]

/-- `PREAMBLE` on a word that is no preamble word 1 (41_burst R167). -/
theorem preambleOp_noMatch (hlen : s.src.POS + s.sampleBytes ≤ s.src.MEM.len)
    (h : preamble1Depth (s.wordAt 0) = none) :
    preambleOp s = .error (.raised (.badPreamble (s.wordAt 0))) (s.advanced s.sampleBytes) := by
  rw [preambleOp, op_bind_ok (by rw [headerWord_run, if_pos hlen]), h]
  rfl

/-- The probe's try of such a word fails and leaves the position at the mark (41_burst R166). -/
theorem tryCandidate_noMatch (hlen : s.src.POS + s.sampleBytes ≤ s.src.MEM.len)
    (h : preamble1Depth (s.wordAt 0) = none) :
    tryCandidate (s.marked.advanced s.sampleBytes) = .ok false s.marked := by
  have hback : srcResetOp (s.marked.advanced s.sampleBytes) = .ok () s.marked := rfl
  have hpre : preambleOp s.marked = .error (.raised (.badPreamble (s.wordAt 0))) (s.marked.advanced s.sampleBytes) :=
    preambleOp_noMatch hlen h
  have htry : attempt preambleOp s.marked = .ok false (s.marked.advanced s.sampleBytes) := by
    rw [attempt, hpre]
    rfl
  rw [tryCandidate, op_bind_ok hback, op_bind_ok htry, op_bind_ok hback, op_pure]

/-! ### One turn of the probe -/

/-- One word of the step past a failed candidate (41_burst R166). -/
theorem stepPast_run (off : Nat) (s : State) :
    stepPast off s =
      if s.src.POS + s.sampleBytes ≤ s.src.MEM.len then .ok () (s.advanced s.sampleBytes)
      else .error (.raised (.inProbe off)) s := by
  rw [stepPast, op_bind, srcReadWordOp_wordAt]
  split_ifs <;> rfl

/-- The step past a failed candidate: `n` words forward, or the stream ends on the way (41_burst R166). -/
theorem repeatOp_stepPast_cases (off n : Nat) (s : State) :
    repeatOp (stepPast off) n s = .ok () (s.advanced (n * s.sampleBytes)) ∨
      ∃ x, repeatOp (stepPast off) n s = .error (.raised (.inProbe off)) (s.setSrc x) := by
  induction n generalizing s with
  | zero =>
    left
    rw [repeatOp_zero, Nat.zero_mul]
    rfl
  | succ n ih =>
    rw [repeatOp_succ, stepPast_run]
    by_cases hlen : s.src.POS + s.sampleBytes ≤ s.src.MEM.len
    · rw [if_pos hlen]
      have hgo : (s.advanced s.sampleBytes).advanced (n * s.sampleBytes) = s.advanced ((n + 1) * s.sampleBytes) := by
        rw [Nat.succ_mul, Nat.add_comm, State.advanced, State.advanced, State.advanced, State.setSrc_src,
          State.setSrc_setSrc, Nat.add_assoc]
      rw [← hgo]
      exact ih (s.advanced s.sampleBytes)
    · rw [if_neg hlen]
      exact .inr ⟨s.src, rfl⟩

variable {fuel off : Nat}

/-- The window is used up (41_burst R166). -/
theorem probeFrom_window (hwin : s.cfg.PROBE_WINDOW.toNat ≤ off) :
    probeFrom (fuel + 1) off s = .error (.raised (.noPreamble off)) s := by
  rw [probeFrom, op_bind_ok (op_get s), if_pos hwin, raiseErr_run]

theorem srcMarkOp_marked (s : State) : srcMarkOp s = .ok () s.marked := rfl

/-- A word read at the mark just set. -/
theorem srcReadWordOp_marked (hlen : s.src.POS + s.sampleBytes ≤ s.src.MEM.len) :
    srcReadWordOp s.marked = .ok (some (s.wordAt 0)) (s.marked.advanced s.sampleBytes) := by
  rw [srcReadWordOp_wordAt]
  exact if_pos hlen

/-- The stream ends inside the window (41_burst R166). -/
theorem probeFrom_end (hin : ¬s.cfg.PROBE_WINDOW.toNat ≤ off) (hlen : ¬s.src.POS + s.sampleBytes ≤ s.src.MEM.len) :
    probeFrom (fuel + 1) off s = .error (.raised (.inProbe off)) s.marked := by
  have hread : srcReadWordOp s.marked = .ok none s.marked := by
    rw [srcReadWordOp_wordAt]
    exact if_neg hlen
  rw [probeFrom, op_bind_ok (op_get s), if_neg hin, op_bind_ok (srcMarkOp_marked s), op_bind_ok hread]
  rfl

/-- A zero word is passed by one unit (41_burst R166). -/
theorem probeFrom_zeroWord (hin : ¬s.cfg.PROBE_WINDOW.toNat ≤ off)
    (hlen : s.src.POS + s.sampleBytes ≤ s.src.MEM.len) (h0 : s.wordAt 0 = 0) :
    probeFrom (fuel + 1) off s = probeFrom fuel (off + s.sampleBytes) (s.marked.advanced s.sampleBytes) := by
  rw [probeFrom, op_bind_ok (op_get s), if_neg hin, op_bind_ok (srcMarkOp_marked s),
    op_bind_ok (srcReadWordOp_marked hlen)]
  dsimp only
  rw [if_pos h0]

/-- A nonzero word that is no preamble is passed by one unit per stream (41_burst R166). -/
theorem probeFrom_noMatch (hin : ¬s.cfg.PROBE_WINDOW.toNat ≤ off)
    (hlen : s.src.POS + s.sampleBytes ≤ s.src.MEM.len) (h0 : s.wordAt 0 ≠ 0)
    (h : preamble1Depth (s.wordAt 0) = none) :
    probeFrom (fuel + 1) off s =
      (repeatOp (stepPast off) s.streams >>= fun _ => probeFrom fuel (off + s.streams * s.sampleBytes)) s.marked := by
  rw [probeFrom, op_bind_ok (op_get s), if_neg hin, op_bind_ok (srcMarkOp_marked s),
    op_bind_ok (srcReadWordOp_marked hlen)]
  dsimp only
  rw [if_neg h0, op_bind_ok (tryCandidate_noMatch hlen h), if_neg Bool.false_ne_true]

theorem streams_pos (s : State) : 1 ≤ s.streams := by
  rw [State.streams]
  split_ifs <;> decide

/-- Under three-byte words the probe ends with an error wherever it starts, having written only the position and the mark:
each turn passes at least one word, so the fuel lasts to the end of the window or of the stream (41_burst R166; log 24). -/
theorem probeFrom_pack3 (fuel off : Nat) (s : State) (hp : s.cfg.PACK3 = true)
    (hfuel : s.src.MEM.len - s.src.POS < fuel) :
    ∃ e x, probeFrom fuel off s = .error (.raised e) (s.setSrc x) := by
  induction fuel generalizing off s with
  | zero => omega
  | succ fuel ih =>
    by_cases hwin : s.cfg.PROBE_WINDOW.toNat ≤ off
    · exact ⟨_, s.src, probeFrom_window hwin⟩
    by_cases hlen : s.src.POS + s.sampleBytes ≤ s.src.MEM.len
    · have hbytes : s.sampleBytes = 3 := sampleBytes_pack3 hp
      have hgo : ∀ n off', 1 ≤ n →
          ∃ e x, probeFrom fuel off' (s.marked.advanced (n * s.sampleBytes)) = .error (.raised e) (s.setSrc x) := by
        intro n off' hn
        refine ih off' (s.marked.advanced (n * s.sampleBytes)) hp ?_
        show s.src.MEM.len - (s.src.POS + n * s.sampleBytes) < fuel
        rw [hbytes] at hlen ⊢
        omega
      by_cases h0 : s.wordAt 0 = 0
      · rw [probeFrom_zeroWord hwin hlen h0]
        simpa only [Nat.one_mul] using hgo 1 (off + s.sampleBytes) le_rfl
      · rw [probeFrom_noMatch hwin hlen h0 (preamble1Depth_pack3 hp 0)]
        rcases repeatOp_stepPast_cases off s.streams s.marked with hok | ⟨x, herr⟩
        · rw [op_bind_ok hok]
          exact hgo s.streams _ (streams_pos s)
        · exact ⟨_, x, op_bind_error herr⟩
    · exact ⟨_, _, probeFrom_end hwin hlen⟩

/-- `PREAMBLE` under three-byte words raises, having written at most the position. -/
theorem preambleOp_pack3 (hp : s.cfg.PACK3 = true) : ∃ e x, preambleOp s = .error (.raised e) (s.setSrc x) := by
  by_cases hlen : s.src.POS + s.sampleBytes ≤ s.src.MEM.len
  · exact ⟨_, _, preambleOp_noMatch hlen (preamble1Depth_pack3 hp 0)⟩
  · exact ⟨_, s.src, preambleOp_end hlen⟩

/-- An operation run in a state of the sequencer that raises there with only the Sample Source written: the error carries
that state, and the bit reader is as before (60_exceptions R283). -/
theorem runOp_enter_raised {st : SeqState} {body : Op Unit} {f : Unit → Op Unit}
    (h : ∃ e x, body (s.entered st) = .error (.raised e) ((s.entered st).setSrc x)) :
    ∃ t e, runOp (enter st >>= fun _ => body >>= f) s = .next t ∧ t.lastErr = some (e, st) ∧ t.br = s.br := by
  obtain ⟨e, x, hbody⟩ := h
  refine ⟨((s.entered st).setSrc x).latch e, e, ?_, latch_lastErr _ e, rfl⟩
  rw [runOp_enter]
  exact runOp_raised (op_bind_error hbody)

end

/-! ### Obligations -/

/-- Settles O10: no assignment writes `MEM` or the parameters. -/
theorem streamNeverWritten : Obligations.StreamNeverWritten :=
  ⟨fun _ _ _ h => ⟨(exec_run h).path.mem_eq, (exec_run h).path.par_eq⟩,
    fun _ _ h => ⟨(step_run h).path.mem_eq, (step_run h).path.par_eq⟩⟩

/-- Settles O19: the position is the one `skipZeros` finds from `POS` within the rest of the stream. -/
theorem alignFindsByte : Obligations.AlignFindsByte := by
  intro s hpos
  have halign : s.src.alignPos = s.src.MEM.skipZeros s.src.POS (s.src.MEM.len - s.src.POS) := if_pos hpos
  have hspec := s.src.MEM.skipZeros_spec s.src.POS (s.src.MEM.len - s.src.POS)
  rw [← halign, Nat.add_sub_cancel' hpos] at hspec
  obtain ⟨hge, hle, hzeros, hbyte⟩ := hspec
  refine ⟨s.src.alignPos, hge, hle, hzeros, hbyte, runOp_ok (srcAlignOp_run s), fun hb => ?_⟩
  show runCommand srcAlignOp s = _
  rw [runCommand, if_neg (by simp [hb])]
  rfl

/-- Settles O37: the top byte of a three-byte word is zero, and no preamble word's is. -/
theorem threeByteWordsNeverMatch : Obligations.ThreeByteWordsNeverMatch := fun s hp =>
  ⟨preamble1Depth_pack3 hp, runOp_enter_raised (preambleOp_pack3 (s := s.entered .preamble) hp),
    runOp_enter_raised (probeFrom_pack3 _ 0 (s.entered .probescan) hp (Nat.lt_succ_self _))⟩

/-- Settles O57: the instruction is the operation `srcMarkOp`. -/
theorem markSavesPosition : Obligations.MarkSavesPosition := fun s => runOp_ok (srcMarkOp_run s)

/-- `MemRead` gives the bytes, or EndOfData if one of them is missing (20_memory R62). -/
theorem exec_memRead (a n : Nat) (s : State) :
    exec (.memRead a n) s = .next (s.setRet (if a + n ≤ s.src.MEM.len
      then .bytes ((List.range n).map fun i => s.src.MEM.byteAt (a + i)) else .endOfData)) := by
  show execMemRead a n s = _
  rw [execMemRead, Memory.read, Memory.bytesFrom_eq]
  split_ifs <;> rfl

/-- `SrcReadWord` hands back the next word and moves past it, or hands back EndOfData (20_memory R63). -/
theorem exec_srcReadWord (s : State) :
    exec .srcReadWord s = .next (if s.src.POS + s.sampleBytes ≤ s.src.MEM.len
      then (s.advanced s.sampleBytes).setRet (.num (s.wordAt 0).toNat) else s.setRet .endOfData) := by
  show execSrcReadWord s = _
  rw [execSrcReadWord, runOp, op_bind, srcReadWordOp_wordAt]
  split_ifs <;> rfl

/-- `SrcReset` goes back to the mark; without one the model stops (20_memory R65; log 15). -/
theorem exec_srcReset (s : State) :
    exec .srcReset s = if s.src.MARK_V then .next (s.setSrc { s.src with POS := s.src.MARKPOS })
      else .refused .noMark := by
  show runOp srcResetOp s = _
  rw [runOp, srcResetOp_run]
  split_ifs <;> rfl

/-- Settles O58: one lemma per call, and the bytes of the next word. -/
theorem sourceCalls : Obligations.SourceCalls := by
  intro s
  refine ⟨fun a n => exec_memRead a n s, fun hlen => ?_, fun hlen => ?_, fun j hj => ?_, fun hv => ?_, fun hv => ?_⟩
  · rw [exec_srcReadWord, if_pos hlen]
    rfl
  · rw [exec_srcReadWord, if_neg (by omega)]
  · rw [wordAt_byte s 0 hj, Nat.zero_mul, Nat.add_zero]
  · rw [exec_srcReset, if_pos hv]
  · rw [exec_srcReset, if_neg (by simp [hv])]

end Sys2Proof.Machine
end

section
/-! PROOF. The pieces a pattern is made of: slices of a number against fields put side by side, the blocks with a layout,
and the words that are matched against a constant (30_encoding R93, R94, R97). -/

namespace Sys2Proof

/-! ### Slices and fields put side by side (00_scope R11) -/

theorem getLsbD_slice (b lo w i : Nat) : (slice b lo w).getLsbD i = (decide (i < w) && b.testBit (lo + i)) := by
  rw [slice, BitVec.getLsbD_ofNat, Nat.testBit_shiftRight]

/-- A field is its own whole slice. -/
theorem slice_self {w : Nat} (x : BitVec w) : slice x.toNat 0 w = x := BitVec.eq_of_toNat_eq (Nat.mod_eq_of_lt x.isLt)

theorem toNat_slice_of_lt {b w : Nat} (h : b < 2 ^ w) : (slice b 0 w).toNat = b := Nat.mod_eq_of_lt h

/-- A slice above the last of two fields is a slice of the first. (Not indexed by the sum of the widths: `simp` looks the
lemma up at widths that are numerals.) -/
theorem slice_append_high {v w : Nat} (x : BitVec v) (y : BitVec w) {lo : Nat} (n : Nat) (h : w ≤ lo) :
    slice (BitVec.toNat (w := no_index (v + w)) (no_index (x ++ y))) lo n = slice x.toNat (lo - w) n := by
  refine BitVec.eq_of_getLsbD_eq fun i _ => ?_
  have hge : ¬ lo + i < w := by omega
  have hsub : lo + i - w = lo - w + i := by omega
  simp only [getLsbD_slice, BitVec.testBit_toNat, BitVec.getLsbD_append, if_neg hge, hsub]

/-- A slice within the last of two fields is a slice of that field. -/
theorem slice_append_low {v w : Nat} (x : BitVec v) (y : BitVec w) {lo n : Nat} (h : lo + n ≤ w) :
    slice (BitVec.toNat (w := no_index (v + w)) (no_index (x ++ y))) lo n = slice y.toNat lo n := by
  refine BitVec.eq_of_getLsbD_eq fun i hi => ?_
  have hlt : lo + i < w := by omega
  simp only [getLsbD_slice, BitVec.testBit_toNat, BitVec.getLsbD_append, if_pos hlt]

/-- Two neighbouring slices make one. -/
theorem slice_append_slice (b v w : Nat) {hi lo : Nat} (h : hi = lo + w) :
    slice b hi v ++ slice b lo w = slice b lo (v + w) := by
  subst h
  refine BitVec.eq_of_getLsbD_eq fun i hi => ?_
  rw [BitVec.getLsbD_append]
  by_cases hiw : i < w
  · simp only [getLsbD_slice, hiw, hi, decide_true, if_true]
  · have hv : i - w < v := by omega
    have hsum : lo + w + (i - w) = lo + i := by omega
    simp only [getLsbD_slice, hiw, hi, hv, hsum, decide_true, if_false]

/-! ### Blocks with a layout (42_frame_header R196, 43_subsegments R226, R227) -/

theorem fitsWidths_splitBits : ∀ (ws : List Nat) (b : Nat), fitsWidths ws (splitBits ws b) = true
  | [], _ => rfl
  | w :: ws, b => by
    rw [splitBits, fitsWidths, fitsWidths_splitBits ws b, Bool.and_true, decide_eq_true_eq]
    exact Nat.mod_lt _ (Nat.two_pow_pos w)

theorem joinBits_splitBits : ∀ (ws : List Nat) (b : Nat), joinBits ws (splitBits ws b) = b % 2 ^ ws.sum
  | [], b => (Nat.mod_one b).symm
  | w :: ws, b => by
    rw [splitBits, joinBits, joinBits_splitBits ws b, Nat.shiftRight_eq_div_pow, List.sum_cons, Nat.add_comm w, pow_add,
      Nat.mod_mul, Nat.mul_comm, Nat.add_comm]

/-- The fields are in the block's lowest bits. -/
theorem splitBits_mod :
    ∀ (ws : List Nat) (b : Nat) {m : Nat}, ws.sum ≤ m → splitBits ws (b % 2 ^ m) = splitBits ws b
  | [], _, _, _ => rfl
  | w :: ws, b, m, h => by
    rw [List.sum_cons] at h
    have hhead : ((b % 2 ^ m) >>> ws.sum) % 2 ^ w = (b >>> ws.sum) % 2 ^ w := by
      refine Nat.eq_of_testBit_eq fun i => ?_
      have hm : i < w → ws.sum + i < m := by omega
      simp only [Nat.testBit_mod_two_pow, Nat.testBit_shiftRight]
      by_cases hi : i < w <;> simp [hi, hm]
    rw [splitBits, splitBits, hhead, splitBits_mod ws b (by omega)]

theorem splitBits_joinBits : ∀ {ws vs : List Nat}, fitsWidths ws vs = true → splitBits ws (joinBits ws vs) = vs
  | [], [], _ => rfl
  | w :: ws, v :: vs, h => by
    obtain ⟨hv, hvs⟩ : v < 2 ^ w ∧ fitsWidths ws vs = true := by simpa [fitsWidths] using h
    have hlow : joinBits ws vs < 2 ^ ws.sum := Laws.EncodeFits.joinBits_lt ws vs hvs
    have hhead : ((v * 2 ^ ws.sum + joinBits ws vs) >>> ws.sum) % 2 ^ w = v := by
      rw [Nat.shiftRight_eq_div_pow, Nat.mul_comm, Nat.mul_add_div (Nat.two_pow_pos _), Nat.div_eq_of_lt hlow,
        Nat.add_zero, Nat.mod_eq_of_lt hv]
    have htail : splitBits ws (v * 2 ^ ws.sum + joinBits ws vs) = vs := by
      rw [← splitBits_mod ws _ le_rfl, Nat.mul_comm, Nat.mul_add_mod, Nat.mod_eq_of_lt hlow,
        splitBits_joinBits hvs]
    rw [joinBits, splitBits, hhead, htail]

/-! ### Words against a constant (30_encoding R93, R94, R97) -/

theorem preamble1Depth_eq_some {w : Word} {d : Depth} (h : preamble1Depth w = some d) : w = d.preamble1 := by
  unfold preamble1Depth at h
  split_ifs at h with hw hw hw <;> cases h <;> exact hw

theorem preamble2Depth_eq_some {w : Word} {d : Depth} (h : preamble2Depth w = some d) : w = d.preamble2 := by
  unfold preamble2Depth at h
  split_ifs at h with hw hw hw <;> cases h <;> exact hw

/-- A word that passes the sync test is its depth's constant, but for bit 0. -/
theorem shiftRight_of_syncMatches {d : Depth} {b : Nat} (hb : b < 2 ^ 24) (h : syncMatches d (BitVec.ofNat 24 b) = true) :
    b >>> 1 = d.syncConst.toNat >>> 1 := by
  have hmask (w : Sample) : w >>> 1 = (w &&& 0xFFFFFE#24) >>> 1 := by
    rw [BitVec.ushiftRight_and_distrib, show 0xFFFFFE#24 >>> 1 = BitVec.allOnes 24 >>> 1 by decide,
      ← BitVec.ushiftRight_and_distrib, BitVec.and_allOnes]
  have hword := congrArg BitVec.toNat (hmask (BitVec.ofNat 24 b))
  rw [eq_of_beq h, BitVec.toNat_ushiftRight, BitVec.toNat_ushiftRight, BitVec.toNat_ofNat, Nat.mod_eq_of_lt hb] at hword
  exact hword

end Sys2Proof
end

section
/-! PROOF. The decoder and the encoder are inverse to each other (30_encoding R92 to R114). `Instr.HasCode` says that an
instruction is well formed and has that code; slot by slot, what the decoder answers has the code it was given, and
pattern by pattern, an instruction's code decodes to it. -/

namespace Sys2Proof

/-- The instruction is well formed, and this is its code. -/
def Instr.HasCode (par : Params) (i : Instr) (u : Code) : Prop := i.wellFormed par = true ∧ encode par i = some u

section
variable {par : Params} {i : Instr} {n b : Nat}

/-! ### The decoder on a code of the right length -/

theorem decode_eq_decodeAt {slot : Slot} (hn : slot.admits par n = true) (hb : b < 2 ^ n) :
    decode par ⟨slot, n, b⟩ = decodeAt par slot n b := by
  rw [decode, if_neg (Nat.not_le.mpr hb), if_pos hn]

/-- The code of a bit vector always fits its length. -/
theorem decode_toNat {slot : Slot} (x : BitVec n) (hn : slot.admits par n = true) :
    decode par ⟨slot, n, x.toNat⟩ = decodeAt par slot n x.toNat := decode_eq_decodeAt hn x.isLt

/-- Only a code that fits and has a length of its slot decodes. -/
theorem decode_eq_ok {u : Code} (h : decode par u = .ok i) :
    u.slot.admits par u.nbits = true ∧ u.bits < 2 ^ u.nbits ∧ decodeAt par u.slot u.nbits u.bits = .ok i := by
  unfold decode at h
  split_ifs at h with hwide hn
  exact ⟨hn, Nat.not_le.mp hwide, h⟩

/-! ### Codes sorted into classes (30_encoding R104, R111, R112, R114) -/

theorem decodeChar_print (p : Fin 8) {ch : BitVec 8} (h : isPrintable ch = true) : decodeChar p ch = .print p ch := by
  have hne (c : BitVec 8) (hc : isPrintable c = false) : ch ≠ c := fun he => by simp [← he, h] at hc
  rw [decodeChar, if_neg (hne _ rfl), if_neg (hne _ rfl), if_neg (hne _ rfl), if_pos h]

theorem decodeChar_other (p : Fin 8) {ch : BitVec 8}
    (h : (!(isPrintable ch || ch == 0#8 || ch == 2#8 || ch == 3#8)) = true) : decodeChar p ch = .charOther p ch := by
  simp only [Bool.not_eq_true', Bool.or_eq_false_iff, beq_eq_false_iff_ne] at h
  obtain ⟨⟨⟨hprint, hnul⟩, hstx⟩, hetx⟩ := h
  rw [decodeChar, if_neg hnul, if_neg hstx, if_neg hetx, if_neg (by simp [hprint])]

theorem hasCode_decodeChar (p : Fin 8) (ch : BitVec 8) :
    (decodeChar p ch).HasCode par ⟨.descChar p, 8, ch.toNat⟩ := by
  unfold decodeChar
  split_ifs with hnul hstx hetx hprint
  · exact hnul ▸ ⟨rfl, rfl⟩
  · exact hstx ▸ ⟨rfl, rfl⟩
  · exact hetx ▸ ⟨rfl, rfl⟩
  · exact ⟨hprint, rfl⟩
  · exact ⟨by simp [Instr.wellFormed, hnul, hstx, hetx, hprint], rfl⟩

theorem decodePcfg_reserved {code : BitVec 6} (h : 24#6 ≤ code ∧ code ≤ 62#6) :
    decodePcfg code = .pcfgReserved code := by
  rw [decodePcfg, if_neg (by bv_omega), if_pos h.2]

theorem hasCode_decodePcfg (code : BitVec 6) : (decodePcfg code).HasCode par ⟨.pcfgCode, 6, code.toNat⟩ := by
  unfold decodePcfg
  split_ifs with hvalid hres
  · exact ⟨decide_eq_true hvalid, rfl⟩
  · exact ⟨Bool.and_eq_true_iff.mpr ⟨decide_eq_true (by bv_omega), decide_eq_true hres⟩, rfl⟩
  · obtain rfl : code = 63#6 := by bv_omega
    exact ⟨rfl, rfl⟩

theorem decodeFrc_low {code : BitVec 4} (h : 1#4 ≤ code ∧ code ≤ 5#4) : decodeFrc code = .frcLow code := by
  rw [decodeFrc, if_neg (by bv_omega), if_pos h.2]

theorem decodeFrc_std {code : BitVec 4} (h : 6#4 ≤ code ∧ code ≤ 8#4) : decodeFrc code = .frcStd code := by
  rw [decodeFrc, if_neg (by bv_omega), if_neg (by bv_omega), if_pos h.2]

theorem decodeFrc_reserved {code : BitVec 4} (h : code = 0#4 ∨ 9#4 ≤ code) : decodeFrc code = .frcReserved code := by
  obtain rfl | h9 := h
  · rfl
  · rw [decodeFrc, if_neg (by bv_omega), if_neg (by bv_omega), if_neg (by bv_omega)]

theorem hasCode_decodeFrc (code : BitVec 4) : (decodeFrc code).HasCode par ⟨.frcCode, 4, code.toNat⟩ := by
  unfold decodeFrc
  split_ifs with hzero hlow hstd
  · exact hzero ▸ ⟨rfl, rfl⟩
  · exact ⟨Bool.and_eq_true_iff.mpr ⟨decide_eq_true (by bv_omega), decide_eq_true hlow⟩, rfl⟩
  · exact ⟨Bool.and_eq_true_iff.mpr ⟨decide_eq_true (by bv_omega), decide_eq_true hstd⟩, rfl⟩
  · exact ⟨Bool.or_eq_true_iff.mpr (.inr (decide_eq_true (by bv_omega))), rfl⟩

theorem decodeSubHeader_mid (base : Bool) {id : BitVec 4} (len : BitVec 12) (h4 : 4 ≤ id.toNat) (h8 : id.toNat < 8) :
    decodeSubHeader base id len = .ok (.subskip4to7 base (slice id.toNat 0 2) len) := by
  unfold decodeSubHeader
  split
  case h_5 => rw [if_pos h8]
  all_goals omega

theorem decodeSubHeader_high (base : Bool) {id : BitVec 4} (len : BitVec 12) (h8 : 8 ≤ id.toNat) :
    decodeSubHeader base id len = .ok (.subskip8to15 base (slice id.toNat 0 3) len) := by
  unfold decodeSubHeader
  split
  case h_5 => rw [if_neg (by omega)]
  all_goals omega

/-- Ids 4 to 7 are `01` and two bits (30_encoding R104). -/
theorem toNat_append_mid : ∀ k : BitVec 2, 4 ≤ (0b01#2 ++ k).toNat ∧ (0b01#2 ++ k).toNat < 8 := by decide

theorem append_slice_mid :
    ∀ id : BitVec 4, 4 ≤ id.toNat → id.toNat < 8 → 0b01#2 ++ slice id.toNat 0 2 = id := by decide

/-- Ids 8 to 15 are `1` and three bits (30_encoding R104). -/
theorem toNat_append_high : ∀ k : BitVec 3, 8 ≤ (0b1#1 ++ k).toNat := by decide

theorem append_slice_high : ∀ id : BitVec 4, 8 ≤ id.toNat → 0b1#1 ++ slice id.toNat 0 3 = id := by decide

theorem hasCode_of_decodeSubHeader {base : Bool} {id : BitVec 4} {len : BitVec 12}
    (h : decodeSubHeader base id len = .ok i) : i.HasCode par ⟨.subHeader base, 16, (id ++ len).toNat⟩ := by
  have hid : id = 0#4 ∨ id = 1#4 ∨ id = 2#4 ∨ id = 3#4 ∨ 4 ≤ id.toNat := by bv_omega
  obtain rfl | rfl | rfl | rfl | h4 := hid
  · cases h
  · cases h
    exact ⟨rfl, rfl⟩
  · cases base <;> cases h <;> exact ⟨rfl, rfl⟩
  · cases h
    exact ⟨rfl, rfl⟩
  · obtain h8 | h8 := Nat.lt_or_ge id.toNat 8
    · cases (decodeSubHeader_mid base len h4 h8).symm.trans h
      exact ⟨rfl, by rw [encode, append_slice_mid id h4 h8]⟩
    · cases (decodeSubHeader_high base len h8).symm.trans h
      exact ⟨rfl, by rw [encode, append_slice_high id h8]⟩

/-! ### What the decoder answers has the code it was given -/

/-- A code's bits are those of a bit vector of its length. -/
theorem hasCode_of_toNat {slot : Slot} (hb : b < 2 ^ n) (h : i.HasCode par ⟨slot, n, (slice b 0 n).toNat⟩) :
    i.HasCode par ⟨slot, n, b⟩ := by rwa [toNat_slice_of_lt hb] at h

theorem hasCode_of_decodePreamble1 {w : Word} (h : decodePreamble1 w = .ok i) :
    i.HasCode par ⟨.preamble1, 32, w.toNat⟩ := by
  unfold decodePreamble1 at h
  cases hd : preamble1Depth w with
  | none => simp [hd] at h
  | some d =>
    rw [preamble1Depth_eq_some hd]
    rw [hd] at h
    cases d <;> cases h <;> exact ⟨rfl, rfl⟩

theorem hasCode_of_decodePreamble2 {w : Word} (h : decodePreamble2 w = .ok i) :
    i.HasCode par ⟨.preamble2, 32, w.toNat⟩ := by
  unfold decodePreamble2 at h
  cases hd : preamble2Depth w with
  | none => simp [hd] at h
  | some d =>
    rw [preamble2Depth_eq_some hd]
    rw [hd] at h
    cases d <;> cases h <;> exact ⟨rfl, rfl⟩

theorem hasCode_of_decodeSync {d : Depth} (hb : b < 2 ^ d.bits) (h : decodeSync d b = .ok i) :
    i.HasCode par ⟨.sync d, d.bits, b⟩ := by
  unfold decodeSync at h
  split_ifs at h with hm
  have hconst (w : Nat) : slice d.syncConst.toNat 1 w = slice b 1 w := by
    rw [slice, slice, shiftRight_of_syncMatches (hb.trans_le (Nat.pow_le_pow_right two_pos d.bits_le)) hm]
  have hjoin (w m : Nat) : some (Code.mk (.sync d) m (slice d.syncConst.toNat 1 w ++ slice b 0 1).toNat) =
      some (Code.mk (.sync d) m (slice b 0 (w + 1)).toNat) := by
    rw [hconst, slice_append_slice b w 1 rfl]
  cases d <;> cases h
  · exact hasCode_of_toNat hb ⟨rfl, hjoin 15 _⟩
  · exact hasCode_of_toNat hb ⟨rfl, hjoin 19 _⟩
  · exact hasCode_of_toNat hb ⟨rfl, hjoin 23 _⟩

/-- A block with a layout is the sum of its fields. -/
theorem joinBits_splitBits_of_lt {φ : Type} {l : Layout φ} (hb : b < 2 ^ l.bits) :
    joinBits l.widths (splitBits l.widths b) = b :=
  (joinBits_splitBits _ _).trans (Nat.mod_eq_of_lt hb)

theorem hasCode_of_decodeAt {slot : Slot} (hn : slot.admits par n = true) (hb : b < 2 ^ n)
    (h : decodeAt par slot n b = .ok i) : i.HasCode par ⟨slot, n, b⟩ := by
  cases slot with
  | cmd =>
    obtain rfl : n = 3 := eq_of_beq hn
    interval_cases b <;> cases h <;> exact ⟨rfl, rfl⟩
  | state =>
    obtain rfl : n = 4 := eq_of_beq hn
    interval_cases b <;> cases h <;> exact ⟨rfl, rfl⟩
  | preamble1 =>
    obtain rfl : n = 32 := eq_of_beq hn
    exact hasCode_of_toNat hb (hasCode_of_decodePreamble1 h)
  | preamble2 =>
    obtain rfl : n = 32 := eq_of_beq hn
    exact hasCode_of_toNat hb (hasCode_of_decodePreamble2 h)
  | burst1 =>
    obtain rfl : n = 32 := eq_of_beq hn
    cases h
    exact hasCode_of_toNat hb ⟨rfl, by
      rw [encode, slice_append_slice b 3 5 rfl, slice_append_slice b 8 1 rfl, slice_append_slice b 9 2 rfl,
        slice_append_slice b 11 5 rfl, slice_append_slice b 16 16 rfl]⟩
  | burst2 =>
    obtain rfl : n = 32 := eq_of_beq hn
    cases h
    exact hasCode_of_toNat hb ⟨rfl, by rw [encode, slice_append_slice b 20 12 rfl]⟩
  | sync d =>
    obtain rfl : n = d.bits := eq_of_beq hn
    exact hasCode_of_decodeSync hb h
  | key d | crcWord d | audioSample d =>
    obtain rfl : n = d.bits := eq_of_beq hn
    cases d <;> cases h <;> exact hasCode_of_toNat hb ⟨rfl, rfl⟩
  | mdhdr =>
    obtain rfl : n = 24 := eq_of_beq hn
    cases h
    exact hasCode_of_toNat hb ⟨rfl, by
      rw [encode, slice_append_slice b 4 10 rfl, slice_append_slice b 14 6 rfl, slice_append_slice b 20 4 rfl]⟩
  | tcblock =>
    obtain rfl : n = par.tcLayout.bits := eq_of_beq hn
    cases h
    exact ⟨fitsWidths_splitBits _ _, by rw [encode, joinBits_splitBits_of_lt hb]⟩
  | chsz | peak | rms =>
    obtain rfl : n = 10 := eq_of_beq hn
    cases h
    exact hasCode_of_toNat hb ⟨rfl, rfl⟩
  | extsz | metsz =>
    obtain rfl : n = 8 := eq_of_beq hn
    cases h
    exact hasCode_of_toNat hb ⟨rfl, rfl⟩
  | pmeta p =>
    obtain rfl : n = 10 := eq_of_beq hn
    cases h
    exact hasCode_of_toNat hb ⟨rfl, by rw [encode, slice_append_slice b 8 2 rfl]⟩
  | cmeta c =>
    obtain rfl : n = 25 := eq_of_beq hn
    cases h
    exact hasCode_of_toNat hb ⟨rfl, by
      rw [encode, slice_append_slice b 4 1 rfl, slice_append_slice b 5 10 rfl, slice_append_slice b 15 10 rfl]⟩
  | descChar p =>
    obtain rfl : n = 8 := eq_of_beq hn
    cases h
    exact hasCode_of_toNat hb (hasCode_decodeChar p _)
  | subHeader base =>
    obtain rfl | rfl : n = 4 ∨ n = 16 := by simpa [Slot.admits] using hn
    · rw [decodeAt, if_pos rfl] at h
      split_ifs at h with hzero
      cases h
      exact hzero ▸ ⟨rfl, rfl⟩
    · have hcode : i.HasCode par ⟨.subHeader base, 16, (slice b 12 4 ++ slice b 0 12).toNat⟩ :=
        hasCode_of_decodeSubHeader h
      rw [slice_append_slice b 4 12 rfl] at hcode
      exact hasCode_of_toNat hb hcode
  | ac3Block ext base p =>
    obtain rfl : n = (par.ac3Layout ext).bits := eq_of_beq hn
    cases ext <;> cases h
    · exact ⟨fitsWidths_splitBits _ _, by rw [encode, joinBits_splitBits_of_lt hb]⟩
    · refine ⟨?_, by rw [encode, List.take_append_drop, joinBits_splitBits_of_lt hb]⟩
      rw [Instr.wellFormed, List.take_append_drop, fitsWidths_splitBits, beq_self_eq_true]
      rfl
  | addbsi base p =>
    obtain rfl | rfl : n = 1 ∨ n = 7 := by simpa [Slot.admits] using hn
    · rw [decodeAt, if_pos rfl] at h
      split_ifs at h with hzero
      cases h
      exact hzero ▸ ⟨rfl, rfl⟩
    · rw [decodeAt, if_neg (by decide)] at h
      split_ifs at h with hone
      cases h
      exact hasCode_of_toNat hb ⟨rfl, by rw [encode, ← hone, slice_append_slice b 1 6 rfl]⟩
  | pcfgCode =>
    obtain rfl : n = 6 := eq_of_beq hn
    cases h
    exact hasCode_of_toNat hb (hasCode_decodePcfg _)
  | frcCode =>
    obtain rfl : n = 4 := eq_of_beq hn
    cases h
    exact hasCode_of_toNat hb (hasCode_decodeFrc _)

/-! ### The code of an instruction decodes to it -/

/-- Values that fit their fields make a block that fits its length. -/
theorem decode_joinBits {slot : Slot} {φ : Type} {l : Layout φ} {vs : List Nat} (hn : slot.admits par l.bits = true)
    (hvs : fitsWidths l.widths vs = true) :
    decode par ⟨slot, l.bits, joinBits l.widths vs⟩ = decodeAt par slot l.bits (joinBits l.widths vs) :=
  decode_eq_decodeAt hn (Laws.EncodeFits.joinBits_lt _ _ hvs)

/-- A subsegment header of sixteen bits is an id and a length (30_encoding R104). -/
theorem decode_subHeader (base : Bool) (id : BitVec 4) (len : BitVec 12) :
    decode par ⟨.subHeader base, 16, (id ++ len).toNat⟩ = decodeSubHeader base id len := by
  rw [decode_toNat _ rfl]
  simp [decodeAt, slice_append_high, slice_append_low, slice_self]

theorem decode_of_hasCode {u : Code} (h : i.HasCode par u) : decode par u = .ok i := by
  obtain ⟨hw, he⟩ := h
  cases i with
  | nop | readFrame | probe | align | clear | cmdReserved5 | cmdReserved6 | cmdReserved7
  | idle | preamble | burstinfo | sync | metadata | framedist | progmeta | chanmeta | mdsubseg
  | audio | extsubseg | audioext | meter | complete | probescan
  | pa16 | pa20 | pa24 | pb16 | pb20 | pb24
  | nul | stx | etx | subend | addbsi0 | pcfgIllegal =>
    cases he
    rfl
  | keyw16 k | keyw20 k | keyw24 k | crcw16 _ k | crcw20 _ k | crcw24 _ k
  | audiosample16 k | audiosample20 k | audiosample24 k | chsz _ k | extsz k | metsz k | peak _ k | rms _ k =>
    cases he
    rw [decode_toNat k rfl, decodeAt, slice_self]
  | bi1 | bi2 | mdhdr | pmeta | cmeta =>
    cases he
    rw [decode_toNat _ rfl]
    simp [decodeAt, slice_append_high, slice_append_low, slice_self]
  | sync16 k | sync20 k | sync24 k =>
    cases he
    clear hw
    rw [decode_toNat _ rfl, decodeAt]
    revert k
    decide
  | tcblock vals | ac3base _ _ vals =>
    cases he
    rw [decode_joinBits (beq_self_eq_true _) hw, decodeAt, splitBits_joinBits hw]
  | ac3ext base p vals more =>
    cases he
    obtain ⟨hfit, hpart⟩ := Bool.and_eq_true_iff.mp hw
    have htake : (vals ++ more).take par.ac3LayoutBase.length = vals := eq_of_beq hpart
    have hdrop : (vals ++ more).drop par.ac3LayoutBase.length = more := by
      simpa [htake] using List.take_append_drop par.ac3LayoutBase.length (vals ++ more)
    rw [decode_joinBits (beq_self_eq_true _) hfit, decodeAt, splitBits_joinBits hfit, htake, hdrop]
  | print p ch =>
    cases he
    rw [decode_toNat ch rfl, decodeAt, slice_self, decodeChar_print p hw]
  | charOther p ch =>
    cases he
    rw [decode_toNat ch rfl, decodeAt, slice_self, decodeChar_other p hw]
  | ac3x base len | ac3b len | subskip2x len | subskip3 base len =>
    cases he
    rw [decode_subHeader]
    rfl
  | subskip4to7 base k len =>
    cases he
    obtain ⟨h4, h8⟩ := toNat_append_mid k
    rw [decode_subHeader, decodeSubHeader_mid base len h4 h8, slice_append_low _ k le_rfl, slice_self]
  | subskip8to15 base k len =>
    cases he
    rw [decode_subHeader, decodeSubHeader_high base len (toNat_append_high k), slice_append_low _ k le_rfl, slice_self]
  | addbsi1 base p len =>
    cases he
    rw [decode_toNat _ rfl, decodeAt, if_neg (by decide), slice_append_high _ len 1 le_rfl, if_pos (slice_self _),
      slice_append_low _ len le_rfl, slice_self]
  | pcfgValid code =>
    cases he
    rw [decode_toNat code rfl, decodeAt, slice_self, decodePcfg, if_pos (of_decide_eq_true hw)]
  | pcfgReserved code =>
    cases he
    rw [decode_toNat code rfl, decodeAt, slice_self, decodePcfg_reserved (by simpa [Instr.wellFormed] using hw)]
  | frcLow code =>
    cases he
    rw [decode_toNat code rfl, decodeAt, slice_self, decodeFrc_low (by simpa [Instr.wellFormed] using hw)]
  | frcStd code =>
    cases he
    rw [decode_toNat code rfl, decodeAt, slice_self, decodeFrc_std (by simpa [Instr.wellFormed] using hw)]
  | frcReserved code =>
    cases he
    rw [decode_toNat code rfl, decodeAt, slice_self, decodeFrc_reserved (by simpa [Instr.wellFormed] using hw)]
  | crcfold | payloadInit | pullword | getbits | skipbits | regionStart | padseg | crccheck | timecode | continuityUpdate
  | continuityInvalidate | descchar | subsegloop | skipsubseg | ac3info | addbsi | ac3check | audiohalf | pcfg | memRead
  | srcReadWord | srcMark | srcReset | srcAlign | raise | emit => cases he
end

end Sys2Proof

namespace Sys2Proof.Machine

/-! ### Obligations -/

/-- Settles O1: each pattern's fields are the slices the decoder takes. -/
theorem decodeEncode : Obligations.DecodeEncode := fun _ _ _ hw he => decode_of_hasCode ⟨hw, he⟩

/-- Settles O2: each slot's slices, put side by side, are the code. -/
theorem encodeDecode : Obligations.EncodeDecode := fun _ _ _ h =>
  have ⟨hn, hb, hat⟩ := decode_eq_ok h
  hasCode_of_decodeAt hn hb hat

/-- Settles O16: the meaning of each of these patterns is the identity, by its own rule. -/
theorem noEffectPatterns : Obligations.NoEffectPatterns := fun _ =>
  ⟨rfl, rfl, rfl, rfl, fun _ => rfl, fun _ => rfl, fun _ => rfl, fun _ => rfl⟩

end Sys2Proof.Machine
end

section
/-! PROOF. How an operation of the rules ends, said once (60_exceptions R297; logs 12 to 15, 24). `Ends m x`: whatever `x`
does, it does not raise the measure `m` of the state, and if it ends early it is by an error of the rules or by one of the
four refusals the model names. The measure is `bitsLeft`, which no operation raises but those that move the position back;
it bounds the turns of `SUBSEGLOOP`. The turns of `PROBESCAN` are bounded by the position alone. -/

namespace Sys2Proof.Machine

/-! ### The stops that have a name -/

/-- The four refusals of the primitives (logs 12 to 15). -/
def Refusal.Named : Refusal → Prop
  | .noDepth | .getbitsWidth _ | .residualFull | .noMark => True
  | .notModelled _ | .hostWhileBusy | .hostRegister _ | .seekOutside _ | .malformedUnit => False

/-- An error of the rules, or one of these refusals; no fault. -/
def Abort.Named : Abort → Prop
  | .raised _ => True
  | .refused r => r.Named
  | .faulted _ => False

/-- An instruction answers a next state or one of these refusals. -/
def Answered (r : Result) : Prop := (∃ t, r = .next t) ∨ ∃ q : Refusal, q.Named ∧ r = .refused q

/-- The bits an operation can still take: the residual ones and those of the rest of the stream, which is the fuel of a
subsegment loop but for one (log 24). -/
def State.bitsLeft (s : State) : Nat := s.br.RESCNT + 8 * (s.src.MEM.len - s.src.POS)

/-- An operation that ends normally, without raising `m`, or early by a name. -/
structure Ends {α : Type} (m : State → Nat) (x : Op α) : Prop where
  le : ∀ {s t : State} {a : α}, x s = .ok a t → m t ≤ m s
  named : ∀ {s t : State} {e : Abort}, x s = .error e t → e.Named

/-- The measure that says nothing. -/
def unmeasured (_ : State) : Nat := 0

section
variable {m : State → Nat} {α β : Type}

theorem Ends.unmeasured {x : Op α} (h : Ends m x) : Ends unmeasured x := ⟨fun _ => le_rfl, h.named⟩

/-- An operation that always ends normally. -/
theorem Ends.of_ok {x : Op α} {a : State → α} {f : State → State} (hx : ∀ s, x s = .ok (a s) (f s))
    (hm : ∀ s, m (f s) ≤ m s) : Ends m x where
  le {s t b} h := by
    cases (hx s).symm.trans h
    exact hm s
  named {s t e} h := nomatch (hx s).symm.trans h

theorem Ends.update {f : State → State} (hm : ∀ s, m (f s) ≤ m s) : Ends m (update f) := .of_ok (update_run f) hm

theorem Ends.pure (a : α) : Ends m (pure a : Op α) := .of_ok (op_pure a) fun _ => le_rfl

theorem Ends.raiseErr (e : ErrVal) : Ends m (raiseErr e : Op α) where
  le h := nomatch h
  named h := by cases h; trivial

theorem Ends.refuse {r : Refusal} (hr : r.Named) : Ends m (refuse r : Op α) where
  le h := nomatch h
  named h := by cases h; exact hr

theorem Ends.bind {x : Op α} {f : α → Op β} (hx : Ends m x) (hf : ∀ a, Ends m (f a)) : Ends m (x >>= f) where
  le h := by
    obtain ⟨a, u, h1, h2⟩ := op_bind_eq_ok h
    exact ((hf a).le h2).trans (hx.le h1)
  named h := by
    rcases op_bind_eq_error h with h1 | ⟨a, u, -, h2⟩
    · exact hx.named h1
    · exact (hf a).named h2

theorem Ends.get_bind {f : State → Op β} (hf : ∀ s, Ends m (f s)) : Ends m ((get : Op State) >>= f) :=
  .bind (.of_ok op_get fun _ => le_rfl) hf

theorem Ends.ite {c : Prop} [Decidable c] {x y : Op α} (hx : Ends m x) (hy : Ends m y) :
    Ends m (if c then x else y) := by
  split_ifs
  · exact hx
  · exact hy

theorem Ends.whenOp (c : Bool) {x : Op Unit} (hx : Ends m x) : Ends m (whenOp c x) := .ite hx (.pure ())

theorem Ends.forEach {f : α → Op Unit} (hf : ∀ a, Ends m (f a)) : ∀ as : List α, Ends m (forEach f as)
  | [] => .pure ()
  | a :: as => .bind (hf a) fun _ => .forEach hf as

theorem Ends.repeatOp {x : Op Unit} (hx : Ends m x) : ∀ n : Nat, Ends m (repeatOp x n)
  | 0 => .pure ()
  | n + 1 => .bind hx fun _ => .repeatOp hx n

/-- What an instruction that is one operation answers. -/
theorem Ends.runOp {x : Op Unit} (hx : Ends m x) (s : State) : Answered (runOp x s) := by
  cases hr : x s with
  | ok a t => exact .inl ⟨t, runOp_ok hr⟩
  | error e t =>
    have hn := hx.named hr
    cases e with
    | raised e => exact .inl ⟨_, runOp_raised hr⟩
    | refused q => exact .inr ⟨q, hn, runOp_refused hr⟩
    | faulted f => exact hn.elim

end

/-! ### The bit reader -/

section
variable {s t : State} {n : Nat}

/-- A `PULLWORD` that ends normally had a depth, room and a word (40_bitreader R133). -/
theorem pullwordOp_eq_ok (h : pullwordOp s = .ok () t) :
    ∃ d, s.br.DEPTH = some d ∧ s.br.RESCNT + d.bits ≤ 55 ∧ s.src.POS + s.sampleBytes ≤ s.src.MEM.len ∧
      t = (s.setSrc { s.src with POS := s.src.POS + s.sampleBytes }).setBr
        (s.br.pull d s.sampleBytes (wordOfBytes (s.src.MEM.bytesFrom s.src.POS s.sampleBytes))) := by
  cases hd : s.br.DEPTH with
  | none =>
    rw [pullwordOp, op_bind_error (needDepth_none hd)] at h
    cases h
  | some d =>
    by_cases hroom : s.br.RESCNT + d.bits ≤ 55
    · rw [pullwordOp_run hd hroom] at h
      split_ifs at h with hlen
      cases h
      exact ⟨d, rfl, hroom, hlen, rfl⟩
    · rw [pullwordOp, op_bind_ok (needDepth_some hd), op_bind_error (by rw [needRoom, if_neg hroom])] at h
      cases h

/-- `PULLWORD` without room in the residual buffer (10_state R22; log 14). -/
theorem pullwordOp_full {d : Depth} (hd : s.br.DEPTH = some d) (h : 55 < s.br.RESCNT + d.bits) :
    pullwordOp s = .error (.refused .residualFull) s := by
  rw [pullwordOp, op_bind_ok (needDepth_some hd), op_bind_error (by rw [needRoom, if_neg (by omega)])]

/-- `PULLWORD` before any depth is set (40_bitreader R130; log 12). -/
theorem pullwordOp_noDepth (hd : s.br.DEPTH = none) : pullwordOp s = .error (.refused .noDepth) s := by
  rw [pullwordOp, op_bind_error (needDepth_none hd)]

theorem needDepth_ends : Ends State.bitsLeft needDepth where
  le {s t d} h := by
    cases hd : s.br.DEPTH with
    | none => cases (needDepth_none hd).symm.trans h
    | some d => cases (needDepth_some hd).symm.trans h; exact le_rfl
  named {s t e} h := by
    cases hd : s.br.DEPTH with
    | none => cases (needDepth_none hd).symm.trans h; trivial
    | some d => cases (needDepth_some hd).symm.trans h

theorem sampleBytes_ge (s : State) : 3 ≤ s.sampleBytes := by
  rw [State.sampleBytes]
  split_ifs <;> decide

/-- A word brings `DEPTH` bits, and takes at least 24 from the rest of the stream. -/
theorem pullwordOp_ends : Ends State.bitsLeft pullwordOp where
  le {s t _} h := by
    obtain ⟨d, -, -, hlen, rfl⟩ := pullwordOp_eq_ok h
    have hbytes := sampleBytes_ge s
    have hdepth := d.bits_le
    show s.br.RESCNT + d.bits + 8 * (s.src.MEM.len - (s.src.POS + s.sampleBytes))
      ≤ s.br.RESCNT + 8 * (s.src.MEM.len - s.src.POS)
    omega
  named {s t e} h := by
    cases hd : s.br.DEPTH with
    | none => cases (pullwordOp_noDepth hd).symm.trans h; trivial
    | some d =>
      by_cases hroom : s.br.RESCNT + d.bits ≤ 55
      · rw [pullwordOp_run hd hroom] at h
        split_ifs at h
        cases h
        trivial
      · cases (pullwordOp_full hd (by omega)).symm.trans h
        trivial

/-- `if RESCNT < n: PULLWORD()` that ends normally. -/
theorem pullIfShort_eq_ok (h : pullIfShort n s = .ok () t) :
    n ≤ s.br.RESCNT ∧ t = s ∨ s.br.RESCNT < n ∧ pullwordOp s = .ok () t := by
  rcases Nat.lt_or_ge s.br.RESCNT n with hlt | hge
  · exact .inr ⟨hlt, pullIfShort_short hlt ▸ h⟩
  · rw [pullIfShort_enough hge] at h
    cases h
    exact .inl ⟨hge, rfl⟩

theorem pullIfShort_ends (n : Nat) : Ends State.bitsLeft (pullIfShort n) where
  le {s t _} h := by
    rcases pullIfShort_eq_ok h with ⟨-, rfl⟩ | ⟨-, hp⟩
    · exact le_rfl
    · exact pullwordOp_ends.le hp
  named {s t e} h := by
    rcases Nat.lt_or_ge s.br.RESCNT n with hlt | hge
    · exact pullwordOp_ends.named (pullIfShort_short hlt ▸ h)
    · cases (pullIfShort_enough hge).symm.trans h

theorem takeBits_ends (n : Nat) : Ends State.bitsLeft (takeBits n) :=
  .of_ok (takeBits_run n) fun _ => Nat.add_le_add_right (Nat.sub_le _ _) _

/-- A word brings at least 16 bits (40_bitreader R133). -/
theorem pullIfShort_gain (h : pullIfShort n s = .ok () t) : n ≤ t.br.RESCNT ∨ s.br.RESCNT + 16 ≤ t.br.RESCNT := by
  rcases pullIfShort_eq_ok h with ⟨hge, rfl⟩ | ⟨-, hp⟩
  · exact .inl hge
  · obtain ⟨d, -, -, -, rfl⟩ := pullwordOp_eq_ok hp
    exact .inr (Nat.add_le_add_left d.bits_ge _)

/-- A `GETBITS` that ends normally: at most two words pulled, after which the bits are there (40_bitreader R134). -/
theorem getbitsOp_eq_ok {v : BitVec n} (h : getbitsOp n s = .ok v t) :
    (1 ≤ n ∧ n ≤ 32) ∧ ∃ d u w, s.br.DEPTH = some d ∧ pullIfShort n s = .ok () u ∧ pullIfShort n u = .ok () w ∧
      n ≤ w.br.RESCNT ∧ takeBits n w = .ok v t := by
  by_cases hn : 1 ≤ n ∧ n ≤ 32
  · cases hd : s.br.DEPTH with
    | none => cases (getbitsOp_noDepth hn hd).symm.trans h
    | some d =>
      rw [getbitsOp_depth hn hd] at h
      obtain ⟨_, u, h1, h⟩ := op_bind_eq_ok h
      obtain ⟨_, w, h2, h3⟩ := op_bind_eq_ok h
      refine ⟨hn, d, u, w, rfl, h1, h2, ?_, h3⟩
      rcases pullIfShort_gain h1 with hu | hu
      · rcases pullIfShort_eq_ok h2 with ⟨-, rfl⟩ | ⟨hlt, -⟩ <;> omega
      · rcases pullIfShort_gain h2 with hw | hw <;> omega
  · cases (getbitsOp_width hn s).symm.trans h

theorem getbitsOp_ends (n : Nat) : Ends State.bitsLeft (getbitsOp n) :=
  .ite (.bind needDepth_ends fun _ => .bind (pullIfShort_ends n) fun _ => .bind (pullIfShort_ends n) fun _ =>
    takeBits_ends n) (.refuse trivial)

/-- `GETBITS(n)` takes `n` bits of those left. -/
theorem getbitsOp_spends {v : BitVec n} (h : getbitsOp n s = .ok v t) : t.bitsLeft + n ≤ s.bitsLeft := by
  obtain ⟨-, d, u, w, -, h1, h2, hn, h3⟩ := getbitsOp_eq_ok h
  have hu := (pullIfShort_ends n).le h1
  have hw := (pullIfShort_ends n).le h2
  rw [takeBits_run] at h3
  cases h3
  have ht : w.br.RESCNT - n + 8 * (w.src.MEM.len - w.src.POS) + n ≤ w.bitsLeft := by
    rw [State.bitsLeft]
    omega
  exact ht.trans (hw.trans hu)

end

end Sys2Proof.Machine
end

section
/-! PROOF. How each operation of the rules ends, down to the loops with fuel and every instruction (60_exceptions R297). -/

namespace Sys2Proof.Machine

/-! ### Reading -/

theorem dropBits_ends (n : Nat) : Ends State.bitsLeft (dropBits n) := .bind (getbitsOp_ends n) fun _ => .pure ()

theorem skipbitsOp_ends (k : Nat) : Ends State.bitsLeft (skipbitsOp k) :=
  .bind (.repeatOp (dropBits_ends 32) _) fun _ => .whenOp _ (dropBits_ends _)

theorem getSample_ends : Ends State.bitsLeft getSample :=
  .bind needDepth_ends fun d => .bind (getbitsOp_ends d.bits) fun _ => .pure _

theorem readLayout_ends {φ : Type} {store : φ × Nat → Nat → Op Unit} (h : ∀ e v, Ends State.bitsLeft (store e v)) :
    ∀ l : Layout φ, Ends State.bitsLeft (readLayout store l)
  | [] => .pure ()
  | e :: rest => .bind (getbitsOp_ends e.2) fun _ => .bind (h e _) fun _ => readLayout_ends h rest

theorem srcReadWordOp_ends : Ends State.bitsLeft srcReadWordOp where
  le {s t w} h := by
    rw [srcReadWordOp_run] at h
    split_ifs at h <;> cases h
    · show s.br.RESCNT + 8 * (s.src.MEM.len - (s.src.POS + s.sampleBytes)) ≤ _
      rw [State.bitsLeft]
      omega
    · exact le_rfl
  named {s t e} h := by
    rw [srcReadWordOp_run] at h
    split_ifs at h

theorem crcFoldOp_ends (v : Sample) : Ends State.bitsLeft (crcFoldOp v) :=
  .bind needDepth_ends fun _ => .update fun _ => le_rfl

/-! ### Updates that take nothing -/

theorem emitEvent_ends (e : Event) : Ends State.bitsLeft (emitEvent e) := .update fun _ => le_rfl
theorem giveBack_ends (r : Ret) : Ends State.bitsLeft (giveBack r) := .update fun _ => le_rfl
theorem updSeq_ends (f : Sequencer → Sequencer) : Ends State.bitsLeft (updSeq f) := .update fun _ => le_rfl
theorem updFr_ends (f : FrameRegs → FrameRegs) : Ends State.bitsLeft (updFr f) := .update fun _ => le_rfl
theorem updTc_ends (f : TcRegs → TcRegs) : Ends State.bitsLeft (updTc f) := .update fun _ => le_rfl
theorem updCh_ends (f : ChanArrays → ChanArrays) : Ends State.bitsLeft (updCh f) := .update fun _ => le_rfl
theorem updPg_ends (f : ProgArrays → ProgArrays) : Ends State.bitsLeft (updPg f) := .update fun _ => le_rfl
theorem setKey_ends (k : Sample) : Ends State.bitsLeft (setKey k) := .update fun _ => le_rfl
theorem beginRegion_ends : Ends State.bitsLeft beginRegion := .update fun _ => le_rfl
theorem selectDepth_ends (d : Depth) : Ends State.bitsLeft (selectDepth d) := .update fun _ => le_rfl
theorem burstWord2_ends (len : BitVec 20) : Ends State.bitsLeft (burstWord2 len) := .update fun _ => le_rfl

theorem updRec_ends (base : Bool) (p : Fin 8) (f : Ac3Rec → Ac3Rec) : Ends State.bitsLeft (updRec base p f) :=
  .update fun s => by cases base <;> exact le_rfl

theorem payloadInitOp_ends : Ends State.bitsLeft payloadInitOp :=
  .update fun _ => Nat.add_le_add_right (Nat.zero_le _) _

/-- `SrcAlign` only moves forward, or to the end of the stream (20_memory R66). -/
theorem srcAlignOp_ends : Ends State.bitsLeft srcAlignOp := .update fun s => by
  refine Nat.add_le_add_left (Nat.mul_le_mul_left 8 ?_) _
  show s.src.MEM.len - s.src.alignPos ≤ s.src.MEM.len - s.src.POS
  rw [Source.alignPos]
  split_ifs with h
  · have := (s.src.MEM.skipZeros_spec s.src.POS (s.src.MEM.len - s.src.POS)).1
    omega
  · omega

theorem srcResetOp_ends : Ends unmeasured srcResetOp where
  le _ := le_rfl
  named {s t e} h := by
    rw [srcResetOp_run] at h
    split_ifs at h
    cases h
    trivial

/-! ### Regions, audio, meter -/

theorem dropKey_ends : Ends State.bitsLeft dropKey := .get_bind fun _ => .whenOp _ (setKey_ends 0)

theorem readKey_ends : Ends State.bitsLeft readKey :=
  .bind dropKey_ends fun _ => .bind getSample_ends fun k => setKey_ends k

theorem regionStartOp_ends (first : Bool) : Ends State.bitsLeft (regionStartOp first) :=
  .get_bind fun _ => .bind (.whenOp _ readKey_ends) fun _ => beginRegion_ends

theorem padsegOp_ends (size : Nat) (r : Region) : Ends State.bitsLeft (padsegOp size r) :=
  .bind needDepth_ends fun _ => .get_bind fun _ =>
    .ite (skipbitsOp_ends _) (.ite (.raiseErr _) (emitEvent_ends _))

theorem closeRegion_ends (r : Region) (c : Sample) : Ends State.bitsLeft (closeRegion r c) :=
  .of_ok (closeRegion_run r c) fun _ => le_rfl

theorem crccheckOp_ends (r : Region) : Ends State.bitsLeft (crccheckOp r) :=
  .bind getSample_ends fun c => closeRegion_ends r c

theorem skipChannel_ends (c : Fin 8) : Ends State.bitsLeft (skipChannel c) :=
  .get_bind fun _ => .repeatOp (.bind getSample_ends fun _ => .pure ()) _

theorem audiohalfOp_ends (lo hi : Nat) (r : Region) : Ends State.bitsLeft (audiohalfOp lo hi r) :=
  .bind (regionStartOp_ends false) fun _ => .bind (.forEach skipChannel_ends _) fun _ => crccheckOp_ends r

theorem audioHalves_ends (r0 r1 : Region) : Ends State.bitsLeft (audioHalves r0 r1) :=
  .get_bind fun _ => .bind (audiohalfOp_ends _ _ r0) fun _ => audiohalfOp_ends _ _ r1

theorem meterOp_ends : Ends State.bitsLeft meterOp :=
  .bind (regionStartOp_ends false) fun _ => .get_bind fun _ =>
    .bind (.forEach (fun _ => .bind (getbitsOp_ends 10) fun _ => updCh_ends _) _) fun _ =>
      .bind (.forEach (fun _ => .bind (getbitsOp_ends 10) fun _ => updCh_ends _) _) fun _ =>
        .bind (padsegOp_ends _ _) fun _ => crccheckOp_ends .meter

theorem skipPadding_ends : Ends State.bitsLeft skipPadding := by
  refine .bind srcReadWordOp_ends fun w => ?_
  cases w with
  | some _ => exact .pure ()
  | none => exact .raiseErr _

theorem completeOp_ends : Ends State.bitsLeft completeOp :=
  .bind needDepth_ends fun _ => .get_bind fun _ => .ite (.raiseErr _)
    (.bind (.update fun _ => Nat.add_le_add_right (Nat.zero_le _) _) fun _ => .repeatOp skipPadding_ends _)

/-! ### The burst layer -/

theorem headerWord_ends (i : BitVec 2) : Ends State.bitsLeft (headerWord i) := by
  refine .bind srcReadWordOp_ends fun w => ?_
  cases w with
  | some w => exact .pure w
  | none => exact .raiseErr _

theorem confirmDepth_ends (w : Word) : Ends State.bitsLeft (confirmDepth w) := by
  refine .get_bind fun s => ?_
  cases s.pd with
  | some d => exact .ite (.update fun _ => le_rfl) (.raiseErr _)
  | none => exact .raiseErr _

theorem preambleOp_ends : Ends State.bitsLeft preambleOp := by
  refine .bind (headerWord_ends 0) fun w1 => ?_
  cases preamble1Depth w1 with
  | some d => exact .bind (selectDepth_ends d) fun _ => .bind (headerWord_ends 1) fun w2 => confirmDepth_ends w2
  | none => exact .raiseErr _

theorem burstWord1_ends (a : BitVec 3) (b : BitVec 5) (c : BitVec 1) (k : BitVec 2) (t : BitVec 5) :
    Ends State.bitsLeft (burstWord1 a b c k t) := .of_ok (burstWord1_run a b c k t) fun _ => le_rfl

theorem burstinfoOp_ends : Ends State.bitsLeft burstinfoOp :=
  .bind (headerWord_ends 2) fun _ => .bind (headerWord_ends 3) fun _ => .bind (burstWord2_ends _) fun _ =>
    burstWord1_ends _ _ _ _ _

theorem acceptBurst_ends : Ends State.bitsLeft acceptBurst :=
  .get_bind fun _ => .ite
    (.bind (.whenOp _ (.bind needDepth_ends fun _ => .get_bind fun _ => .ite (.raiseErr _) (.pure ()))) fun _ =>
      payloadInitOp_ends) (.raiseErr _)

/-! ### The frame header -/

theorem syncWord_ends (w : Sample) : Ends State.bitsLeft (syncWord w) :=
  .bind needDepth_ends fun _ => .bind (.update fun _ => le_rfl) fun _ => .bind (regionStartOp_ends true) fun _ =>
    .ite (.pure ()) (.raiseErr _)

theorem syncOp_ends : Ends State.bitsLeft syncOp := .bind getSample_ends fun w => syncWord_ends w

theorem continuityUpdateOp_ends (idx : Nat) (df : Bool) : Ends State.bitsLeft (continuityUpdateOp idx df) :=
  .of_ok (continuityUpdateOp_run idx df) fun _ => le_rfl

theorem continuityInvalidateOp_ends : Ends State.bitsLeft continuityInvalidateOp :=
  .of_ok continuityInvalidateOp_run fun _ => le_rfl

theorem timecodeDone_ends : Ends State.bitsLeft timecodeDone :=
  .get_bind fun _ => .ite (.bind (updTc_ends _) fun _ => continuityInvalidateOp_ends)
    (.bind (updTc_ends _) fun _ => continuityUpdateOp_ends _ _)

theorem timecodeOp_ends : Ends State.bitsLeft timecodeOp :=
  .get_bind fun _ => .bind (readLayout_ends (fun _ _ => updTc_ends _) _) fun _ => timecodeDone_ends

theorem pcfgOp_ends (code : BitVec 6) : Ends State.bitsLeft (pcfgOp code) :=
  .get_bind fun _ => .ite (.pure _) (.ite (.raiseErr _) (.raiseErr _))

theorem pcfgField_ends (code : BitVec 6) : Ends State.bitsLeft (pcfgField code) :=
  .bind (updFr_ends _) fun _ => .bind (pcfgOp_ends code) fun _ => updFr_ends _

theorem frcField_ends (frc : BitVec 4) : Ends State.bitsLeft (frcField frc) :=
  .bind (updFr_ends _) fun _ => .ite (.raiseErr _) (updFr_ends _)

theorem metadataOp_ends : Ends State.bitsLeft metadataOp :=
  .bind (getbitsOp_ends 4) fun _ => .bind (updFr_ends _) fun _ =>
    .bind (getbitsOp_ends 10) fun _ => .bind (updFr_ends _) fun _ =>
      .bind (getbitsOp_ends 6) fun c => .bind (pcfgField_ends c) fun _ =>
        .bind (getbitsOp_ends 4) fun t => .bind (frcField_ends t) fun _ => timecodeOp_ends

theorem framedistOp_ends : Ends State.bitsLeft framedistOp :=
  .get_bind fun _ => .bind (.forEach (fun _ => .bind (getbitsOp_ends 10) fun _ => updCh_ends _) _) fun _ =>
    .bind (.whenOp _ (.bind (getbitsOp_ends 8) fun _ => updFr_ends _)) fun _ =>
      .bind (getbitsOp_ends 8) fun _ => updFr_ends _

theorem desccharOp_ends (p : Fin 8) (ch : BitVec 8) : Ends State.bitsLeft (desccharOp p ch) :=
  .of_ok (desccharOp_run p ch) fun _ => le_rfl

theorem progmetaOp_ends : Ends State.bitsLeft progmetaOp :=
  .get_bind fun _ => .forEach (fun p => .bind (getbitsOp_ends 8) fun c => .bind (updPg_ends _) fun _ =>
    .bind (desccharOp_ends p c) fun _ => .bind (getbitsOp_ends 2) fun _ => updPg_ends _) _

theorem readCmeta_ends (c : Fin 8) : Ends State.bitsLeft (readCmeta c) :=
  .bind (getbitsOp_ends 4) fun _ => .bind (updCh_ends _) fun _ =>
    .bind (getbitsOp_ends 1) fun _ => .bind (updCh_ends _) fun _ =>
      .bind (getbitsOp_ends 10) fun _ => .bind (updCh_ends _) fun _ =>
        .bind (getbitsOp_ends 10) fun _ => updCh_ends _

theorem chanmetaOp_ends : Ends State.bitsLeft chanmetaOp := .get_bind fun _ => .forEach readCmeta_ends _

/-! ### Subsegments -/

theorem ac3BlockDone_ends (ext base : Bool) (p : Fin 8) : Ends State.bitsLeft (ac3BlockDone ext base p) :=
  .bind (updRec_ends base p _) fun _ => .of_ok (ac3checkOp_run base p) fun _ => le_rfl

theorem readAc3Block_ends (ext base : Bool) (p : Fin 8) : Ends State.bitsLeft (readAc3Block ext base p) :=
  .get_bind fun _ => .bind (readLayout_ends (fun _ _ => updRec_ends base p _) _) fun _ => ac3BlockDone_ends ext base p

theorem addbsiPresent_ends (base : Bool) (p : Fin 8) (len : BitVec 6) :
    Ends State.bitsLeft (addbsiPresent base p len) :=
  .bind (updRec_ends base p _) fun _ => skipbitsOp_ends _

theorem addbsiOp_ends (base : Bool) (p : Fin 8) : Ends State.bitsLeft (addbsiOp base p) :=
  .bind (getbitsOp_ends 1) fun _ => .bind (updRec_ends base p _) fun _ =>
    .ite (.bind (getbitsOp_ends 6) fun len => addbsiPresent_ends base p len) (updRec_ends base p _)

theorem ac3infoOp_ends (ext base : Bool) : Ends State.bitsLeft (ac3infoOp ext base) :=
  .get_bind fun _ => .bind (.forEach (readAc3Block_ends ext base) _) fun _ => .forEach (addbsiOp_ends base) _

theorem subBlock_ends (base : Bool) (id : BitVec 4) (len : BitVec 12) : Ends State.bitsLeft (subBlock base id len) :=
  .get_bind fun _ => .bind (.ite (ac3infoOp_ends _ base) (skipbitsOp_ends _)) fun _ => .get_bind fun _ =>
    .bind (.whenOp _ (.ite (skipbitsOp_ends _) (.whenOp _ (emitEvent_ends _)))) fun _ => updFr_ends _

/-- One turn of the loop, after its id (43_subsegments R222). -/
theorem subsegFrom_succ (base : Bool) (fuel : Nat) : subsegFrom base (fuel + 1) = getbitsOp 4 >>= fun id =>
    if id = 0#4 then pure () else getbitsOp 12 >>= fun len => subBlock base id len >>= fun _ => subsegFrom base fuel :=
  rfl

theorem subsegFrom_le (base : Bool) (fuel : Nat) {s t : State} {a : Unit} (h : subsegFrom base fuel s = .ok a t) :
    t.bitsLeft ≤ s.bitsLeft := by
  induction fuel generalizing s with
  | zero => cases h
  | succ fuel ih =>
    rw [subsegFrom_succ] at h
    obtain ⟨id, u, hid, h⟩ := op_bind_eq_ok h
    refine le_trans ?_ ((getbitsOp_ends 4).le hid)
    split_ifs at h
    · cases h
      exact le_rfl
    · obtain ⟨len, w, hlen, h⟩ := op_bind_eq_ok h
      obtain ⟨_, x, hb, h⟩ := op_bind_eq_ok h
      exact (ih h).trans (((subBlock_ends base id len).le hb).trans ((getbitsOp_ends 12).le hlen))

/-- The loop of `SUBSEGLOOP` ends by a name if its fuel covers the bits left: each turn takes four at least (log 24). -/
theorem subsegFrom_named (base : Bool) (fuel : Nat) {s t : State} {e : Abort} (hfuel : s.bitsLeft < fuel)
    (h : subsegFrom base fuel s = .error e t) : e.Named := by
  induction fuel generalizing s with
  | zero => omega
  | succ fuel ih =>
    rw [subsegFrom_succ] at h
    rcases op_bind_eq_error h with h | ⟨id, u, hid, h⟩
    · exact (getbitsOp_ends 4).named h
    have hu := getbitsOp_spends hid
    split_ifs at h
    · cases h
    rcases op_bind_eq_error h with h | ⟨len, w, hlen, h⟩
    · exact (getbitsOp_ends 12).named h
    have hw := getbitsOp_spends hlen
    rcases op_bind_eq_error h with h | ⟨_, x, hb, h⟩
    · exact (subBlock_ends base id len).named h
    have hx := (subBlock_ends base id len).le hb
    exact ih (by omega) h

theorem subsegloopOp_run (base : Bool) (s : State) : subsegloopOp base s = subsegFrom base s.subsegFuel s :=
  op_bind_ok (op_get s)

theorem bitsLeft_lt_subsegFuel (s : State) : s.bitsLeft < s.subsegFuel := by
  rw [State.bitsLeft, State.subsegFuel]
  omega

theorem subsegloopOp_ends (base : Bool) : Ends State.bitsLeft (subsegloopOp base) where
  le {s _ _} h := subsegFrom_le base s.subsegFuel ((subsegloopOp_run base s).symm.trans h)
  named {s _ _} h :=
    subsegFrom_named base s.subsegFuel (bitsLeft_lt_subsegFuel s) ((subsegloopOp_run base s).symm.trans h)

theorem mdsubsegOp_ends : Ends State.bitsLeft mdsubsegOp :=
  .bind (subsegloopOp_ends true) fun _ => .get_bind fun _ => .bind (padsegOp_ends _ _) fun _ =>
    crccheckOp_ends .metadata

theorem extsubsegOp_ends : Ends State.bitsLeft extsubsegOp :=
  .bind (regionStartOp_ends false) fun _ => .bind (subsegloopOp_ends false) fun _ => .get_bind fun _ =>
    .bind (padsegOp_ends _ _) fun _ => crccheckOp_ends .extMeta

/-! ### The probe -/

/-- `PREAMBLE` moves the position, and leaves the stream and the mark (41_burst R167). -/
theorem preambleOp_src (s : State) : ∃ p, (endState (preambleOp s)).src = { s.src with POS := p } := by
  by_cases h1 : s.src.POS + s.sampleBytes ≤ s.src.MEM.len
  · rw [preambleOp, op_bind_ok (by rw [headerWord_run, if_pos h1])]
    cases preamble1Depth (s.wordAt 0) with
    | none => exact ⟨_, rfl⟩
    | some d =>
      dsimp only
      rw [selectDepth, op_bind_ok (update_run _ _), op_bind, headerWord_run]
      split_ifs
      · dsimp only
        rw [confirmDepth_run (d := d) rfl]
        split_ifs <;> exact ⟨_, rfl⟩
      · exact ⟨_, rfl⟩
  · rw [preambleOp_end h1]
    exact ⟨s.src.POS, rfl⟩

/-- A catch of a FormatError changes no state of its own (41_burst R166). -/
theorem attempt_eq_ok {x : Op Unit} {s t : State} {b : Bool} (h : attempt x s = .ok b t) : t = endState (x s) := by
  rw [attempt] at h
  split at h
  · rename_i hx; cases h; rw [hx]; rfl
  · rename_i hx
    split_ifs at h
    cases h; rw [hx]; rfl
  · cases h

theorem attempt_eq_error {x : Op Unit} {s t : State} {e : Abort} (h : attempt x s = .error e t) :
    x s = .error e t := by
  rw [attempt] at h
  split at h
  · cases h
  · rename_i hx
    split_ifs at h
    cases h; exact hx
  · rename_i hx
    cases h; exact hx

theorem attempt_ends {x : Op Unit} (hx : Ends unmeasured x) : Ends unmeasured (attempt x) :=
  ⟨fun _ => le_rfl, fun h => hx.named (attempt_eq_error h)⟩

theorem tryCandidate_ends : Ends unmeasured tryCandidate :=
  .bind srcResetOp_ends fun _ => .bind (attempt_ends preambleOp_ends.unmeasured) fun _ =>
    .bind srcResetOp_ends fun _ => .pure _

/-- The try of a candidate leaves the position at the mark (41_burst R166). -/
theorem tryCandidate_src {s t : State} {b : Bool} (hmark : s.src.MARK_V = true) (h : tryCandidate s = .ok b t) :
    t.src = { s.src with POS := s.src.MARKPOS } := by
  obtain ⟨_, u, h1, h⟩ := op_bind_eq_ok h
  obtain ⟨_, v, h2, h⟩ := op_bind_eq_ok h
  obtain ⟨_, w, h3, h4⟩ := op_bind_eq_ok h
  rw [srcResetOp_run, if_pos hmark] at h1
  cases h1
  obtain ⟨p, hp⟩ := preambleOp_src (s.setSrc { s.src with POS := s.src.MARKPOS })
  rw [← attempt_eq_ok h2] at hp
  rw [srcResetOp_run, hp, if_pos (by exact hmark)] at h3
  cases h3
  cases h4
  rfl

theorem probeFound_ends (off : Nat) : Ends State.bitsLeft (probeFound off) :=
  .bind (.update fun _ => le_rfl) fun _ => .get_bind fun _ => .whenOp _ (emitEvent_ends _)

/-- One turn of the probe at a nonzero word (41_burst R166). -/
theorem probeFrom_candidate {s : State} {fuel off : Nat} (hin : ¬s.cfg.PROBE_WINDOW.toNat ≤ off)
    (hlen : s.src.POS + s.sampleBytes ≤ s.src.MEM.len) (h0 : s.wordAt 0 ≠ 0) :
    probeFrom (fuel + 1) off s = (tryCandidate >>= fun ok => if ok then probeFound off else
      repeatOp (stepPast off) s.streams >>= fun _ => probeFrom fuel (off + s.streams * s.sampleBytes))
        (s.marked.advanced s.sampleBytes) := by
  rw [probeFrom, op_bind_ok (op_get s), if_neg hin, op_bind_ok (srcMarkOp_marked s),
    op_bind_ok (srcReadWordOp_marked hlen)]
  dsimp only
  rw [if_neg h0]

/-- The loop of `PROBESCAN` ends by a name if its fuel covers the rest of the stream: each turn passes a word (log 24). -/
theorem probeFrom_named (fuel off : Nat) {s t : State} {e : Abort} (hfuel : s.src.MEM.len - s.src.POS < fuel)
    (h : probeFrom fuel off s = .error e t) : e.Named := by
  induction fuel generalizing off s with
  | zero => omega
  | succ fuel ih =>
    by_cases hwin : s.cfg.PROBE_WINDOW.toNat ≤ off
    · cases (probeFrom_window hwin).symm.trans h
      trivial
    by_cases hlen : s.src.POS + s.sampleBytes ≤ s.src.MEM.len
    · have hbytes := sampleBytes_ge s
      by_cases h0 : s.wordAt 0 = 0
      · rw [probeFrom_zeroWord hwin hlen h0] at h
        refine ih _ ?_ h
        show s.src.MEM.len - (s.src.POS + s.sampleBytes) < fuel
        omega
      · rw [probeFrom_candidate hwin hlen h0] at h
        rcases op_bind_eq_error h with h | ⟨ok, u, htry, h⟩
        · exact tryCandidate_ends.named h
        have hsrc : u.src = s.marked.src := tryCandidate_src (s := s.marked.advanced s.sampleBytes) rfl htry
        cases ok with
        | true => exact (probeFound_ends off).named h
        | false =>
          rw [if_neg Bool.false_ne_true] at h
          rcases repeatOp_stepPast_cases off s.streams u with hok | ⟨x, herr⟩
          · rw [op_bind_ok hok] at h
            refine ih _ ?_ h
            show u.src.MEM.len - (u.src.POS + s.streams * u.sampleBytes) < fuel
            have hstep : 1 * 3 ≤ s.streams * u.sampleBytes := Nat.mul_le_mul (streams_pos s) (sampleBytes_ge u)
            rw [hsrc]
            show s.src.MEM.len - (s.src.POS + s.streams * u.sampleBytes) < fuel
            omega
          · cases (op_bind_error herr).symm.trans h
            trivial
    · cases (probeFrom_end hwin hlen).symm.trans h
      trivial

theorem probescanOp_ends : Ends unmeasured probescanOp :=
  ⟨fun _ => le_rfl, fun {s _ _} h => probeFrom_named s.probeFuel 0 (Nat.lt_succ_self _) h⟩

/-! ### Commands and sequencer states -/

theorem enter_ends (st : SeqState) : Ends State.bitsLeft (enter st) := updSeq_ends _

theorem extensionStates_ends : Ends State.bitsLeft extensionStates :=
  .bind (enter_ends _) fun _ => .bind extsubsegOp_ends fun _ => .bind (enter_ends _) fun _ => audioHalves_ends _ _

theorem readFrameOp_ends : Ends State.bitsLeft readFrameOp :=
  .bind (enter_ends _) fun _ => .bind preambleOp_ends fun _ =>
    .bind (enter_ends _) fun _ => .bind burstinfoOp_ends fun _ => .bind acceptBurst_ends fun _ =>
    .bind (enter_ends _) fun _ => .bind syncOp_ends fun _ =>
    .bind (enter_ends _) fun _ => .bind metadataOp_ends fun _ =>
    .bind (enter_ends _) fun _ => .bind framedistOp_ends fun _ =>
    .bind (enter_ends _) fun _ => .bind progmetaOp_ends fun _ =>
    .bind (enter_ends _) fun _ => .bind chanmetaOp_ends fun _ =>
    .bind (enter_ends _) fun _ => .bind mdsubsegOp_ends fun _ =>
    .bind (enter_ends _) fun _ => .bind (audioHalves_ends _ _) fun _ =>
    .get_bind fun _ => .bind (.whenOp _ extensionStates_ends) fun _ =>
    .bind (enter_ends _) fun _ => .bind meterOp_ends fun _ =>
    .bind (enter_ends _) fun _ => completeOp_ends

theorem probeOp_ends : Ends unmeasured probeOp := .bind (enter_ends _).unmeasured fun _ => probescanOp_ends

theorem beginCmd_ends : Ends State.bitsLeft beginCmd := .update fun _ => le_rfl

theorem clearOp_ends : Ends State.bitsLeft clearOp :=
  .bind payloadInitOp_ends fun _ => .bind (.update fun _ => le_rfl) fun _ => updSeq_ends _

/-- A command run to its end, or ignored (41_burst R160). -/
theorem runCommand_answered {body : Op Unit} (hb : Ends unmeasured body) (s : State) : Answered (runCommand body s) := by
  rw [runCommand]
  split_ifs
  · exact .inl ⟨s, rfl⟩
  · exact Ends.runOp (.bind beginCmd_ends.unmeasured fun _ => .bind hb fun _ => (updSeq_ends _).unmeasured) s

/-- The operation of a sequencer state and its successor (10_state R27). -/
theorem seqStep_answered {st next : SeqState} {body : Op Unit} (hb : Ends State.bitsLeft body) (s : State) :
    Answered (runOp (seqStep st body next) s) :=
  Ends.runOp (.bind (enter_ends st) fun _ => .bind hb fun _ => enter_ends next) s

/-- The operation of a state that ends its command (10_state R27). -/
theorem lastStep_answered {st : SeqState} {body : Op Unit} (hb : Ends unmeasured body) (s : State) :
    Answered (runOp (lastStep st body) s) :=
  Ends.runOp (.bind (enter_ends st).unmeasured fun _ => .bind hb fun _ => (updSeq_ends _).unmeasured) s

/-! ### Every instruction -/

/-- What an instruction answers. -/
theorem exec_answered (i : Instr) (s : State) : Answered (exec i s) := by
  cases i with
  | nop | cmdReserved5 | cmdReserved6 | cmdReserved7 | idle | subend | audiosample16 | audiosample20 | audiosample24
  | pa16 | pa20 | pa24 | bi2 | keyw16 | keyw20 | keyw24 | chsz | extsz | metsz | cmeta | addbsi0 | peak | rms
  | payloadInit | continuityInvalidate | srcMark | srcAlign | raise | emit => exact .inl ⟨_, rfl⟩
  | readFrame => exact runCommand_answered readFrameOp_ends.unmeasured s
  | probe => exact runCommand_answered probeOp_ends s
  | align => exact runCommand_answered srcAlignOp_ends.unmeasured s
  | clear => exact runCommand_answered clearOp_ends.unmeasured s
  | preamble => exact seqStep_answered preambleOp_ends s
  | burstinfo => exact seqStep_answered burstinfoOp_ends s
  | sync => exact seqStep_answered syncOp_ends s
  | metadata => exact seqStep_answered metadataOp_ends s
  | framedist => exact seqStep_answered framedistOp_ends s
  | progmeta => exact seqStep_answered progmetaOp_ends s
  | chanmeta => exact seqStep_answered chanmetaOp_ends s
  | mdsubseg => exact seqStep_answered mdsubsegOp_ends s
  | audio => exact seqStep_answered (audioHalves_ends _ _) s
  | extsubseg => exact seqStep_answered extsubsegOp_ends s
  | audioext => exact seqStep_answered (audioHalves_ends _ _) s
  | meter => exact seqStep_answered meterOp_ends s
  | complete => exact lastStep_answered completeOp_ends.unmeasured s
  | probescan => exact lastStep_answered probescanOp_ends s
  | pb16 | pb20 | pb24 => exact (confirmDepth_ends _).runOp s
  | bi1 => exact (burstWord1_ends _ _ _ _ _).runOp s
  | sync16 | sync20 | sync24 => exact (syncWord_ends _).runOp s
  | crcw16 | crcw20 | crcw24 => exact (closeRegion_ends _ _).runOp s
  | mdhdr mdid size pcfgc frc =>
    exact Ends.runOp (.bind (updFr_ends _) fun _ => .bind (updFr_ends _) fun _ => .bind (pcfgField_ends pcfgc) fun _ =>
      frcField_ends frc) s
  | tcblock => exact Ends.runOp (.bind (updTc_ends _) fun _ => timecodeDone_ends) s
  | pmeta p ch bw =>
    exact Ends.runOp (.bind (updPg_ends _) fun _ => .bind (desccharOp_ends p ch) fun _ => updPg_ends _) s
  | nul p => exact (desccharOp_ends p 0x00#8).runOp s
  | stx p => exact (desccharOp_ends p 0x02#8).runOp s
  | etx | print | charOther | descchar => exact (desccharOp_ends _ _).runOp s
  | ac3x | ac3b | subskip2x | subskip3 | subskip4to7 | subskip8to15 => exact (subBlock_ends _ _ _).runOp s
  | ac3base base p vals =>
    exact Ends.runOp (.bind (updRec_ends base p _) fun _ => ac3BlockDone_ends false base p) s
  | ac3ext base p vals more =>
    exact Ends.runOp (.bind (updRec_ends base p _) fun _ => ac3BlockDone_ends true base p) s
  | addbsi1 base p len =>
    exact Ends.runOp (.bind (updRec_ends base p _) fun _ => addbsiPresent_ends base p len) s
  | pcfgIllegal => exact (pcfgField_ends 63#6).runOp s
  | pcfgValid | pcfgReserved => exact (pcfgField_ends _).runOp s
  | frcLow | frcStd | frcReserved => exact (frcField_ends _).runOp s
  | crcfold => exact (crcFoldOp_ends _).runOp s
  | pullword => exact pullwordOp_ends.runOp s
  | getbits n => exact Ends.runOp (.bind (getbitsOp_ends n) fun _ => giveBack_ends _) s
  | skipbits | skipsubseg => exact (skipbitsOp_ends _).runOp s
  | regionStart => exact (regionStartOp_ends _).runOp s
  | padseg => exact (padsegOp_ends _ _).runOp s
  | crccheck => exact (crccheckOp_ends _).runOp s
  | timecode => exact timecodeOp_ends.runOp s
  | continuityUpdate => exact (continuityUpdateOp_ends _ _).runOp s
  | subsegloop => exact (subsegloopOp_ends _).runOp s
  | ac3info => exact (ac3infoOp_ends _ _).runOp s
  | addbsi => exact (addbsiOp_ends _ _).runOp s
  | ac3check base p => exact Ends.runOp (m := State.bitsLeft) (.of_ok (ac3checkOp_run base p) fun _ => le_rfl) s
  | audiohalf => exact (audiohalfOp_ends _ _ _).runOp s
  | pcfg code => exact Ends.runOp (.bind (pcfgOp_ends code) fun _ => giveBack_ends _) s
  | memRead => exact .inl ⟨_, exec_memRead _ _ s⟩
  | srcReadWord => exact .inl ⟨_, exec_srcReadWord s⟩
  | srcReset => exact srcResetOp_ends.runOp s

/-- Settles O14: every operation ends by a name, the loops before their fuel is used up. -/
theorem onlyNamedStops : Obligations.OnlyNamedStops := by
  intro i s
  obtain ht | ⟨q, hq, h⟩ := exec_answered i s
  · exact .inl ht
  · rw [h]
    cases q with
    | noDepth => exact .inr (.inl rfl)
    | getbitsWidth n => exact .inr (.inr (.inl ⟨n, rfl⟩))
    | residualFull => exact .inr (.inr (.inr (.inl rfl)))
    | noMark => exact .inr (.inr (.inr (.inr rfl)))
    | notModelled | hostWhileBusy | hostRegister | seekOutside | malformedUnit => exact hq.elim

end Sys2Proof.Machine
end

section
/-! PROOF. The bit reader's reads (40_bitreader R133 to R135). A read of `n + 1` bits is a read of one bit and a read of
`n`: the bit is the top one of the residual buffer, taking it before or after a word is pulled is the same, and the words
are pulled in the same order. No bound on the bits of `RES` above `RESCNT` is needed, since no read delivers them. -/

namespace Sys2Proof.Machine

/-! ### Delivering one bit, then the others -/

/-- The state after `n` bits of the residual buffer have been delivered (40_bitreader R134, after its loop). -/
def State.delivered (s : State) (n : Nat) : State :=
  s.setBr { s.br with
    RES := BitVec.ofNat 64 (s.br.RES.toNat % 2 ^ (s.br.RESCNT - n))
    RESCNT := s.br.RESCNT - n
    BITCNT := s.br.BITCNT + n }

/-- The top `n` bits of the residual buffer. -/
def State.topBits (s : State) (n : Nat) : BitVec n := BitVec.ofNat n (s.br.RES.toNat >>> (s.br.RESCNT - n))

section
variable {s t u w : State} {n : Nat}

theorem takeBits_delivered (n : Nat) (s : State) : takeBits n s = .ok (s.topBits n) (s.delivered n) := takeBits_run n s

theorem delivered_res_toNat (s : State) (n : Nat) :
    (s.delivered n).br.RES.toNat = s.br.RES.toNat % 2 ^ (s.br.RESCNT - n) := by
  show (BitVec.ofNat 64 _).toNat = _
  rw [BitVec.toNat_ofNat, Nat.mod_eq_of_lt ((Nat.mod_le _ _).trans_lt s.br.RES.isLt)]

@[simp] theorem delivered_rescnt (s : State) (n : Nat) : (s.delivered n).br.RESCNT = s.br.RESCNT - n := rfl

theorem delivered_delivered (s : State) (a b : Nat) : (s.delivered a).delivered b = s.delivered (a + b) := by
  have hres : (s.delivered a).br.RES.toNat % 2 ^ ((s.delivered a).br.RESCNT - b)
      = s.br.RES.toNat % 2 ^ (s.br.RESCNT - (a + b)) := by
    rw [delivered_res_toNat, delivered_rescnt, Nat.sub_sub]
    exact Nat.mod_mod_of_dvd _ (pow_dvd_pow 2 (by omega))
  rw [State.delivered, hres, delivered_rescnt, Nat.sub_sub]
  show s.setBr _ = s.setBr _
  rw [← Nat.add_assoc]
  rfl

/-- `n + 1` bits of a number from bit `m` up are its bit `m + n` and the `n` bits below that one. -/
theorem shiftRight_mod_two_pow_succ (x m n : Nat) :
    (x >>> m) % 2 ^ (n + 1) = (x >>> (m + n)) % 2 * 2 ^ n + ((x % 2 ^ (m + n)) >>> m) % 2 ^ n := by
  have hhigh : x >>> (m + n) = x >>> m / 2 ^ n := by rw [Nat.shiftRight_add, Nat.shiftRight_eq_div_pow]
  have hlow : (x % 2 ^ (m + n)) >>> m = (x >>> m) % 2 ^ n := by
    rw [pow_add, Nat.shiftRight_eq_div_pow, Nat.shiftRight_eq_div_pow, Nat.mod_mul_right_div_self]
  rw [hhigh, hlow, Nat.mod_mod, pow_succ, Nat.mod_mul, Nat.add_comm, Nat.mul_comm]

theorem topBits_succ (h : n + 1 ≤ s.br.RESCNT) :
    (s.topBits (n + 1)).toNat = (s.topBits 1).toNat * 2 ^ n + ((s.delivered 1).topBits n).toNat := by
  have hm : s.br.RESCNT - 1 = s.br.RESCNT - (n + 1) + n := by omega
  have hsub : s.br.RESCNT - 1 - n = s.br.RESCNT - (n + 1) := by omega
  rw [State.topBits, State.topBits, State.topBits, delivered_res_toNat, delivered_rescnt, hsub, hm]
  simp only [BitVec.toNat_ofNat, pow_one]
  exact shiftRight_mod_two_pow_succ _ _ _

/-! ### A word pulled before or after a bit is delivered -/

/-- A number cut to its low `k` bits, bit by bit. -/
theorem getLsbD_ofNat_mod (x : BitVec 64) (k i : Nat) :
    (BitVec.ofNat 64 (x.toNat % 2 ^ k)).getLsbD i = (decide (i < k) && x.getLsbD i) := by
  rw [BitVec.getLsbD_ofNat, Nat.testBit_mod_two_pow, BitVec.testBit_toNat]
  by_cases hi : i < 64
  · simp [hi]
  · simp [BitVec.getLsbD_of_ge x i (by omega)]

theorem getLsbD_sample_of_ge {d : Depth} {v : Sample} (hv : v.toNat < 2 ^ d.bits) {i : Nat} (hi : d.bits ≤ i) :
    v.getLsbD i = false := by
  rw [← BitVec.testBit_toNat]
  exact Nat.testBit_lt_two_pow (hv.trans_le (Nat.pow_le_pow_right (by omega) hi))

/-- Appending a sample and dropping the bits from `c - 1 + DEPTH` up is dropping those from `c - 1` up and appending. -/
theorem append_mod (x : BitVec 64) {d : Depth} {v : Sample} (hv : v.toNat < 2 ^ d.bits) (k : Nat) :
    BitVec.ofNat 64 (((x <<< d.bits) ||| v.setWidth 64).toNat % 2 ^ (k + d.bits))
      = (BitVec.ofNat 64 (x.toNat % 2 ^ k) <<< d.bits) ||| v.setWidth 64 := by
  refine BitVec.eq_of_getLsbD_eq fun i hi => ?_
  simp only [getLsbD_ofNat_mod, BitVec.getLsbD_or, BitVec.getLsbD_shiftLeft, BitVec.getLsbD_setWidth]
  by_cases hd : i < d.bits
  · have hk : i < k + d.bits := by omega
    simp [hd, hk]
  · have hk : i < k + d.bits ↔ i - d.bits < k := by omega
    simp [hi, hd, hk, getLsbD_sample_of_ge hv (Nat.le_of_not_lt hd)]

/-- The top bit of a residual buffer stays the top bit when a sample is appended. -/
theorem topBit_append (x : BitVec 64) {d : Depth} {v : Sample} (hv : v.toNat < 2 ^ d.bits) {k : Nat}
    (hk : k + d.bits < 64) : ((x <<< d.bits) ||| v.setWidth 64).getLsbD (k + d.bits) = x.getLsbD k := by
  have hge : ¬k + d.bits < d.bits := by omega
  simp only [BitVec.getLsbD_or, BitVec.getLsbD_shiftLeft, BitVec.getLsbD_setWidth, hk, hge, Nat.add_sub_cancel,
    getLsbD_sample_of_ge hv (Nat.le_add_left d.bits k), decide_true, decide_false, Bool.not_false, Bool.true_and,
    Bool.or_false]

theorem topBits_one_eq (h : s.br.RES.getLsbD (s.br.RESCNT - 1) = t.br.RES.getLsbD (t.br.RESCNT - 1)) :
    s.topBits 1 = t.topBits 1 := by
  refine BitVec.eq_of_getLsbD_eq fun i hi => ?_
  obtain rfl : i = 0 := by omega
  rwa [State.topBits, State.topBits, BitVec.getLsbD_ofNat, BitVec.getLsbD_ofNat, Nat.testBit_shiftRight,
    Nat.testBit_shiftRight, Nat.add_zero, Nat.add_zero, BitVec.testBit_toNat, BitVec.testBit_toNat,
    decide_eq_true hi, Bool.true_and, Bool.true_and]

/-- What a pull keeps, and that it does not matter whether the top bit is delivered before it (40_bitreader R133). -/
theorem pullwordOp_delivered (hc : 1 ≤ s.br.RESCNT) (h : pullwordOp s = .ok () t) :
    pullwordOp (s.delivered 1) = .ok () (t.delivered 1) ∧ s.topBits 1 = t.topBits 1 := by
  obtain ⟨d, hd, hroom, hlen, rfl⟩ := pullwordOp_eq_ok h
  have hv := sampleOf_lt d s.br.KEY (wordOfBytes (s.src.MEM.bytesFrom s.src.POS s.sampleBytes))
  have hsum : s.br.RESCNT - 1 + d.bits = s.br.RESCNT + d.bits - 1 := by omega
  constructor
  · have hroom' : (s.delivered 1).br.RESCNT + d.bits ≤ 55 := by
      rw [delivered_rescnt]
      omega
    have hres := append_mod s.br.RES hv (s.br.RESCNT - 1)
    rw [hsum] at hres
    rw [pullwordOp_run (s := s.delivered 1) hd hroom', if_pos (by exact hlen)]
    simp only [State.delivered, State.setBr_br, BitReader.pull]
    rw [hres, hsum]
    rfl
  · refine topBits_one_eq ?_
    show _ = ((s.br.RES <<< d.bits) ||| (sampleOf d s.br.KEY _).setWidth 64).getLsbD (s.br.RESCNT + d.bits - 1)
    rw [← hsum, topBit_append s.br.RES hv (by omega)]

theorem pullIfShort_delivered (hc : 1 ≤ s.br.RESCNT) (h : pullIfShort (n + 1) s = .ok () t) :
    pullIfShort n (s.delivered 1) = .ok () (t.delivered 1) ∧ s.topBits 1 = t.topBits 1 := by
  rcases pullIfShort_eq_ok h with ⟨hge, rfl⟩ | ⟨hlt, hp⟩
  · exact ⟨pullIfShort_enough (by rw [delivered_rescnt]; omega), rfl⟩
  · rw [pullIfShort_short (by rw [delivered_rescnt]; omega)]
    exact pullwordOp_delivered hc hp

theorem pullIfShort_depth (h : pullIfShort n s = .ok () t) : t.br.DEPTH = s.br.DEPTH := by
  rcases pullIfShort_eq_ok h with ⟨-, rfl⟩ | ⟨-, hp⟩
  · rfl
  · obtain ⟨d, -, -, -, rfl⟩ := pullwordOp_eq_ok hp
    rfl

/-! ### One read as two -/

/-- `GETBITS`, from its pulls (40_bitreader R134). -/
theorem getbitsOp_of_pulls {d : Depth} (hn : 1 ≤ n ∧ n ≤ 32) (hd : s.br.DEPTH = some d)
    (h1 : pullIfShort n s = .ok () u) (h2 : pullIfShort n u = .ok () w) :
    getbitsOp n s = .ok (w.topBits n) (w.delivered n) := by
  rw [getbitsOp_depth hn hd, op_bind_ok h1, op_bind_ok h2, takeBits_delivered]

/-- A read of `n + 1` bits is a read of one bit and then one of `n` (40_bitreader R134). -/
theorem getbitsOp_succ (hn : 1 ≤ n) {v : BitVec (n + 1)} (h : getbitsOp (n + 1) s = .ok v t) :
    ∃ b x v', getbitsOp 1 s = .ok b x ∧ getbitsOp n x = .ok v' t ∧ v.toNat = b.toNat * 2 ^ n + v'.toNat := by
  obtain ⟨hwidth, d, u, w, hd, h1, h2, hw, h3⟩ := getbitsOp_eq_ok h
  rw [takeBits_delivered] at h3
  cases h3
  have hn' : 1 ≤ n ∧ n ≤ 32 := ⟨hn, by omega⟩
  rw [topBits_succ hw, Nat.add_comm n 1, ← delivered_delivered]
  rcases Nat.eq_zero_or_pos s.br.RESCNT with h0 | hpos
  · have hp : pullwordOp s = .ok () u := (pullIfShort_short (by omega)).symm.trans h1
    have hu : 1 ≤ u.br.RESCNT := by
      rcases pullIfShort_gain h1 with hu | hu <;> omega
    obtain ⟨h2', htop⟩ := pullIfShort_delivered hu h2
    have hdu : (u.delivered 1).br.DEPTH = some d := (pullIfShort_depth h1).trans hd
    have hbit := getbitsOp_of_pulls (by decide) hd ((pullIfShort_short (by omega)).trans hp) (pullIfShort_enough hu)
    have hrest := getbitsOp_of_pulls hn' hdu h2' (pullIfShort_enough (by rw [delivered_rescnt]; omega))
    exact ⟨_, _, _, hbit, hrest, by rw [htop]⟩
  · obtain ⟨h1', htop1⟩ := pullIfShort_delivered hpos h1
    have hu : 1 ≤ u.br.RESCNT := by
      rcases pullIfShort_gain h1 with hu | hu <;> omega
    obtain ⟨h2', htop2⟩ := pullIfShort_delivered hu h2
    have hbit := getbitsOp_of_pulls (by decide) hd (pullIfShort_enough hpos) (pullIfShort_enough hpos)
    have hrest := getbitsOp_of_pulls (s := s.delivered 1) hn' hd h1' h2'
    exact ⟨_, _, _, hbit, hrest, by rw [htop1, htop2]⟩

/-- Bits read one at a time go below those read so far (40_bitreader R134). -/
theorem serialBits_of_getbitsOp (acc : Nat) {v : BitVec n} (h : getbitsOp n s = .ok v t) :
    serialBits n acc s = .ok (acc * 2 ^ n + v.toNat) t := by
  induction n generalizing acc s with
  | zero => cases (getbitsOp_width (by omega) s).symm.trans h
  | succ n ih =>
    rcases Nat.eq_zero_or_pos n with rfl | hn
    · rw [serialBits, op_bind_ok h, serialBits, op_pure, pow_one, Nat.mul_comm]
    · obtain ⟨b, x, v', hbit, hrest, hv⟩ := getbitsOp_succ hn h
      rw [serialBits, op_bind_ok hbit, ih _ hrest, hv]
      congr 1
      ring

end

/-! ### Reads past the end of the stream -/

section
variable {s : State} {d : Depth} {n k : Nat}

/-- A `PULLWORD` after the last whole word of the stream (40_bitreader R133). -/
theorem pullwordOp_pulled_end (hd : s.br.DEPTH = some d) (hroom : s.br.RESCNT + (k + 1) * d.bits ≤ 55)
    (hlen : s.src.MEM.len < s.src.POS + (k + 1) * s.sampleBytes) :
    pullwordOp (s.pulled d k) = .error (.raised .midField) (s.pulled d k) := by
  rw [Nat.succ_mul, ← Nat.add_assoc] at hroom hlen
  have hroom' : (s.pulled d k).br.RESCNT + d.bits ≤ 55 := hroom
  have hend : ¬(s.pulled d k).src.POS + (s.pulled d k).sampleBytes ≤ (s.pulled d k).src.MEM.len := Nat.not_le.mpr hlen
  rw [pullwordOp_run (s := s.pulled d k) hd hroom', if_neg hend]

/-- A field that the stream does not hold: the words that are there are pulled, then `MID_FIELD` is raised (40_bitreader
R134, 60_exceptions R284). -/
theorem getbitsOp_end (hs : s.Ready d) (hn : 1 ≤ n ∧ n ≤ 32) (hpos : s.src.POS ≤ s.src.MEM.len)
    (hlen : s.src.MEM.len < (s.consume d n).src.POS) :
    getbitsOp n s = .error (.raised .midField) (s.pulled d ((s.src.MEM.len - s.src.POS) / s.sampleBytes)) := by
  have hbytes := sampleBytes_ge s
  have hdepth := d.bits_ge
  have hdepth' := d.bits_le
  change s.src.MEM.len < s.src.POS + s.wordsFor d n * s.sampleBytes at hlen
  have hshort : s.br.RESCNT < n := by
    by_contra hc
    rw [s.wordsFor_zero (Nat.le_of_not_lt hc)] at hlen
    omega
  obtain ⟨-, hbound⟩ := s.wordsFor_bounds (d := d) hshort
  obtain ⟨k, hk⟩ : ∃ k, (s.src.MEM.len - s.src.POS) / s.sampleBytes = k := ⟨_, rfl⟩
  have hthere : k * s.sampleBytes ≤ s.src.MEM.len - s.src.POS := hk ▸ Nat.div_mul_le_self _ _
  have hover : s.src.MEM.len - s.src.POS < (k + 1) * s.sampleBytes :=
    (Nat.div_lt_iff_lt_mul (by omega)).mp (by omega)
  have hwords : k + 1 ≤ s.wordsFor d n := Nat.lt_of_mul_lt_mul_right (a := s.sampleBytes) (by omega)
  have hmul : (k + 1) * d.bits ≤ s.wordsFor d n * d.bits := Nat.mul_le_mul_right _ hwords
  have hroom : s.br.RESCNT + (k + 1) * d.bits ≤ 55 := by omega
  have hend := pullwordOp_pulled_end hs.depth hroom (by omega)
  have hstill : (s.pulled d k).br.RESCNT < n := by
    show s.br.RESCNT + k * d.bits < n
    rw [Nat.succ_mul] at hmul
    omega
  rw [hk, getbitsOp_depth hn hs.depth]
  match k with
  | 0 =>
    rw [State.pulled_zero] at hend hstill ⊢
    exact op_bind_error ((pullIfShort_short hshort).trans hend)
  | 1 =>
    have hfirst : pullwordOp s = .ok () (s.pulled d 1) := by
      have := pullwordOp_pulled hs 0 (by omega) (by omega)
      rwa [State.pulled_zero] at this
    rw [op_bind_ok ((pullIfShort_short hshort).trans hfirst)]
    exact op_bind_error ((pullIfShort_short hstill).trans hend)
  | k + 2 =>
    have : 2 * d.bits ≤ (k + 2) * d.bits := Nat.mul_le_mul_right _ (by omega)
    change s.br.RESCNT + (k + 2) * d.bits < n at hstill
    omega

end

/-! ### The bits of a sample -/

/-- Bit `j` of a sample: of the raw word's top `DEPTH` bits and of the key (40_bitreader R133). -/
theorem sampleOf_getLsbD (d : Depth) (key : Sample) (w : Word) (j : Nat) :
    (sampleOf d key w).getLsbD j = (decide (j < d.bits) && (w.getLsbD (32 - d.bits + j) ^^ key.getLsbD j)) := by
  have hle := d.bits_le
  rw [sampleOf, BitVec.getLsbD_xor, BitVec.getLsbD_setWidth, BitVec.getLsbD_ushiftRight, BitVec.getLsbD_and,
    BitVec.getLsbD_ofNat, Nat.testBit_two_pow_sub_one]
  by_cases hj : j < d.bits
  · have h24 : j < 24 := by omega
    simp [hj, h24]
  · simp [hj, BitVec.getLsbD_of_ge w (32 - d.bits + j) (by omega)]

/-! ### Obligations -/

/-- Settles O23, by induction on the width: `getbitsOp_succ` splits the top bit off. -/
theorem getbitsIsSerial : Obligations.GetbitsIsSerial := by
  intro s t n v h
  rw [serialBits_of_getbitsOp 0 h, Nat.zero_mul, Nat.zero_add]

/-- Settles O22: the operation delivers the field, which the instruction hands back. -/
theorem getbitsDelivers : Obligations.GetbitsDelivers := by
  intro s d n hs h1 h32 hlen
  have hv : (BitVec.ofNat n (s.field d 0 n)).toNat = s.field d 0 n := Nat.mod_eq_of_lt (s.field_lt d 0 n)
  show runOp (getbitsOp n >>= fun v => giveBack (.num v.toNat)) s = _
  rw [runOp_bind_ok (getbitsOp_ok hs ⟨h1, h32⟩ hlen), hv]
  rfl

/-- Settles O24: each clause is one way the operation ends early. -/
theorem getbitsTraps : Obligations.GetbitsTraps := by
  refine ⟨fun s d n hs h1 h32 hpos hlen => ?_, fun s n hn => ?_, fun s n h1 h32 hd => ?_, fun s hd => ?_,
    fun s d hd hfull => ?_⟩
  · exact runOp_raised (op_bind_error (getbitsOp_end hs ⟨h1, h32⟩ hpos hlen))
  · exact runOp_refused (op_bind_error (getbitsOp_width hn s))
  · exact runOp_refused (op_bind_error (getbitsOp_noDepth ⟨h1, h32⟩ hd))
  · exact runOp_refused (pullwordOp_noDepth hd)
  · exact runOp_refused (pullwordOp_full hd hfull)

/-- Settles O25: both instructions are `SKIPBITS`. -/
theorem skipConsumes : Obligations.SkipConsumes :=
  ⟨fun _ _ _ hs hlen => runOp_ok (skipbitsOp_ok hs hlen), fun _ _ _ hs hlen => runOp_ok (skipbitsOp_ok hs hlen)⟩

/-- Settles O26: the word at the position is pulled, or it is missing. -/
theorem pullwordResult : Obligations.PullwordResult := by
  intro s d hd hroom
  have hrun := pullwordOp_run hd hroom
  refine ⟨fun hlen => ⟨?_, sampleOf_getLsbD d s.br.KEY (s.wordAt 0)⟩, fun hlen => ?_⟩
  · rw [if_pos hlen] at hrun
    rw [State.sampleAt, State.wordAt, Nat.zero_mul, Nat.add_zero]
    exact runOp_ok hrun
  · rw [if_neg (by omega)] at hrun
    exact runOp_raised hrun

end Sys2Proof.Machine
end

section
/-! PROOF. The CRC (40_bitreader R131, R139). The long division is linear over GF(2) and leaves the dividend less a
multiple of `G`; since `G` has a constant term, no multiple of `G` by a nonzero polynomial of degree below `k` vanishes in
its low `k` bits, so folding a sample loses no difference of the register and a single flipped bit never divides away. -/

namespace Sys2Proof.Machine

/-! ### Polynomials of a bounded degree -/

/-- No coefficient from index `n` up: a polynomial of degree below `n`. -/
def DegreeBelow (n : Nat) (t : BitVec 40) : Prop := ∀ i, n ≤ i → t.getLsbD i = false

section
variable {a b t x y : BitVec 40} {i j k m n : Nat}

theorem DegreeBelow.xor (ha : DegreeBelow n a) (hb : DegreeBelow n b) : DegreeBelow n (a ^^^ b) := fun i hi => by
  rw [BitVec.getLsbD_xor, ha i hi, hb i hi, Bool.false_xor]

theorem DegreeBelow.mono (h : DegreeBelow m t) (hle : m ≤ n) : DegreeBelow n t := fun i hi => h i (hle.trans hi)

theorem degreeBelow_setWidth {w : Nat} {v : BitVec w} (hv : v.toNat < 2 ^ n) : DegreeBelow n (v.setWidth 40) := by
  intro i hi
  rw [BitVec.getLsbD_setWidth, ← BitVec.testBit_toNat,
    Nat.testBit_lt_two_pow (hv.trans_le (Nat.pow_le_pow_right (by omega) hi)), Bool.and_false]

theorem DegreeBelow.shiftLeft (h : DegreeBelow n t) (k : Nat) : DegreeBelow (k + n) (t <<< k) := by
  intro i hi
  rw [BitVec.getLsbD_shiftLeft, h (i - k) (by omega), Bool.and_false]

/-- A remainder fits the register. -/
theorem DegreeBelow.setWidth_setWidth (h : DegreeBelow 16 t) : (t.setWidth 16).setWidth 40 = t := by
  refine BitVec.eq_of_getLsbD_eq fun i hi => ?_
  rw [BitVec.getLsbD_setWidth, BitVec.getLsbD_setWidth]
  by_cases h16 : i < 16
  · simp [h16, hi]
  · simp [h16, h i (Nat.le_of_not_lt h16)]

/-! ### The generator -/

/-- `G` has degree 16 (40_bitreader R131). -/
theorem crcPoly_degree : DegreeBelow 17 crcPoly := fun i hi => by
  rw [← BitVec.testBit_toNat]
  exact Nat.testBit_lt_two_pow ((show crcPoly.toNat < 2 ^ 17 by decide).trans_le (Nat.pow_le_pow_right (by omega) hi))

theorem crcPoly_leading : crcPoly.getLsbD 16 = true := by decide

theorem crcPoly_constant : crcPoly.getLsbD 0 = true := by decide

/-- A multiple of `G` does not depend on the factor's coefficients from `k` up. -/
theorem polyTimesG_congr {p q : Nat} (h : ∀ i < k, p.testBit i = q.testBit i) : polyTimesG p k = polyTimesG q k := by
  induction k with
  | zero => rfl
  | succ k ih => rw [polyTimesG, polyTimesG, ih fun i hi => h i (by omega), h k (by omega)]

theorem polyTimesG_eq_zero {q : Nat} (h : ∀ i < k, q.testBit i = false) : polyTimesG q k = 0#40 := by
  induction k with
  | zero => rfl
  | succ k ih =>
    rw [polyTimesG, ih fun i hi => h i (by omega), h k (by omega), if_neg Bool.false_ne_true]
    rfl

/-- The lowest coefficient of a multiple of `G` is the lowest of the factor, since `G` has a constant term. -/
theorem polyTimesG_getLsbD {q : Nat} (hk : k ≤ 40) (hi : i < k) (h : ∀ j < i, q.testBit j = false) :
    (polyTimesG q k).getLsbD i = q.testBit i := by
  induction k with
  | zero => omega
  | succ k ih =>
    rw [polyTimesG, BitVec.getLsbD_xor]
    rcases Nat.lt_succ_iff_lt_or_eq.mp hi with hlt | rfl
    · have hterm : (if q.testBit k then crcPoly <<< k else 0).getLsbD i = false := by
        split_ifs
        · simp [BitVec.getLsbD_shiftLeft, hlt]
        · exact BitVec.getLsbD_zero
      rw [ih (by omega) hlt, hterm, Bool.xor_false]
    · have hterm : (if q.testBit i then crcPoly <<< i else 0).getLsbD i = q.testBit i := by
        cases q.testBit i with
        | true =>
          have hwidth : i < 40 := by omega
          simp [crcPoly_constant, hwidth]
        | false => simp
      rw [polyTimesG_eq_zero h, hterm, BitVec.getLsbD_zero, Bool.false_xor]

/-- A multiple of `G` by a polynomial of degree below `k` that vanishes below `x^k` is 0. -/
theorem polyTimesG_eq_zero_of_low {q : Nat} (hk : k ≤ 40) (h : ∀ i < k, (polyTimesG q k).getLsbD i = false) :
    polyTimesG q k = 0#40 := by
  refine polyTimesG_eq_zero fun i => ?_
  induction i using Nat.strong_induction_on with
  | _ i ih =>
    intro hi
    rw [← polyTimesG_getLsbD hk hi fun j hj => ih j hj (by omega)]
    exact h i hi

/-! ### The long division -/

/-- One step of the division: the leading term, if there, is cancelled by a multiple of `G` (40_bitreader R131). -/
def crcStep (k : Nat) (t : BitVec 40) : BitVec 40 := if t.getLsbD (k + 16) then t ^^^ (crcPoly <<< k) else t

theorem crcReduce_succ (k : Nat) (t : BitVec 40) : crcReduce (k + 1) t = crcReduce k (crcStep k t) := rfl

theorem crcStep_xor (k : Nat) (x y : BitVec 40) : crcStep k (x ^^^ y) = crcStep k x ^^^ crcStep k y := by
  rw [crcStep, crcStep, crcStep, BitVec.getLsbD_xor]
  cases x.getLsbD (k + 16) <;> cases y.getLsbD (k + 16)
  · rfl
  · exact BitVec.xor_assoc x y _
  · show x ^^^ y ^^^ crcPoly <<< k = x ^^^ crcPoly <<< k ^^^ y
    rw [BitVec.xor_assoc, BitVec.xor_comm y, ← BitVec.xor_assoc]
  · show x ^^^ y = x ^^^ crcPoly <<< k ^^^ (y ^^^ crcPoly <<< k)
    rw [BitVec.xor_comm y, BitVec.xor_assoc, ← BitVec.xor_assoc (crcPoly <<< k), BitVec.xor_self, BitVec.zero_xor]

/-- A step lowers the degree. -/
theorem crcStep_degree (hk : k < 24) (h : DegreeBelow (k + 1 + 16) t) : DegreeBelow (k + 16) (crcStep k t) := by
  intro i hi
  have hpoly := crcPoly_degree.shiftLeft k
  rcases Nat.eq_or_lt_of_le hi with rfl | hlt
  · have hlead : (crcPoly <<< k).getLsbD (k + 16) = true := by
      have hwidth : k + 16 < 40 := by omega
      rw [BitVec.getLsbD_shiftLeft, Nat.add_sub_cancel_left, crcPoly_leading]
      simp [hwidth]
    rw [crcStep]
    split_ifs with htop
    · rw [BitVec.getLsbD_xor, htop, hlead, Bool.xor_self]
    · exact Bool.eq_false_of_not_eq_true htop
  · rw [crcStep]
    split_ifs
    · rw [BitVec.getLsbD_xor, h i (by omega), hpoly i (by omega), Bool.xor_self]
    · exact h i (by omega)

/-- Nothing to cancel. -/
theorem crcStep_of_degree (h : DegreeBelow (k + 16) t) : crcStep k t = t := by
  rw [crcStep, h (k + 16) le_rfl, if_neg Bool.false_ne_true]

theorem crcReduce_xor (k : Nat) (x y : BitVec 40) : crcReduce k (x ^^^ y) = crcReduce k x ^^^ crcReduce k y := by
  induction k generalizing x y with
  | zero => rfl
  | succ k ih => rw [crcReduce_succ, crcReduce_succ, crcReduce_succ, crcStep_xor, ih]

/-- The division leaves a remainder (40_bitreader R131). -/
theorem crcReduce_degree (hk : k ≤ 24) (h : DegreeBelow (k + 16) t) : DegreeBelow 16 (crcReduce k t) := by
  induction k generalizing t with
  | zero => rwa [Nat.zero_add] at h
  | succ k ih => exact ih (by omega) (crcStep_degree (by omega) h)

/-- The steps above the dividend's degree do nothing. -/
theorem crcReduce_of_degree (hle : j ≤ k) (h : DegreeBelow (j + 16) t) : crcReduce k t = crcReduce j t := by
  induction k, hle using Nat.le_induction with
  | base => rfl
  | succ k hjk ih => rw [crcReduce_succ, crcStep_of_degree (h.mono (by omega)), ih]

/-- The division takes a multiple of `G` away (40_bitreader R131). -/
theorem crcReduce_eq (k : Nat) (t : BitVec 40) : ∃ q, crcReduce k t = t ^^^ polyTimesG q k := by
  induction k generalizing t with
  | zero => exact ⟨0, (BitVec.xor_zero).symm⟩
  | succ k ih =>
    obtain ⟨q, hq⟩ := ih (crcStep k t)
    refine ⟨q % 2 ^ k + if t.getLsbD (k + 16) then 2 ^ k else 0, ?_⟩
    have hmod : q % 2 ^ k < 2 ^ k := Nat.mod_lt _ (Nat.two_pow_pos k)
    have hlow : ∀ p, p = q % 2 ^ k ∨ p = q % 2 ^ k + 2 ^ k → polyTimesG p k = polyTimesG q k := by
      rintro p (rfl | rfl) <;> refine polyTimesG_congr fun i hi => ?_
      · simp [hi]
      · rw [Nat.add_comm, Nat.testBit_two_pow_add_gt hi]
        simp [hi]
    rw [crcReduce_succ, hq, crcStep, polyTimesG]
    split_ifs with htop hbit hbit
    · rw [hlow _ (.inr rfl), BitVec.xor_assoc, BitVec.xor_comm (crcPoly <<< k)]
    · rw [Nat.add_comm, Nat.testBit_two_pow_add_eq, Nat.testBit_lt_two_pow hmod] at hbit
      exact absurd rfl hbit
    · rw [Nat.add_zero, Nat.testBit_lt_two_pow hmod] at hbit
      cases hbit
    · rw [Nat.add_zero, hlow _ (.inl rfl)]
      exact congrArg (t ^^^ ·) BitVec.xor_zero.symm

/-- `G` divides no `x^k * p` with `p` of degree below 16, but for `p = 0`. -/
theorem eq_zero_of_crcReduce_shiftLeft {p : BitVec 16} (hk : k ≤ 24) (h : crcReduce k (p.setWidth 40 <<< k) = 0#40) :
    p = 0#16 := by
  obtain ⟨q, hq⟩ := crcReduce_eq k (p.setWidth 40 <<< k)
  have hmult : p.setWidth 40 <<< k = polyTimesG q k := BitVec.xor_eq_zero_iff.mp (hq.symm.trans h)
  have hzero : p.setWidth 40 <<< k = 0#40 := by
    rw [hmult]
    refine polyTimesG_eq_zero_of_low (by omega) fun i hi => ?_
    rw [← hmult, BitVec.getLsbD_shiftLeft]
    simp [hi]
  refine BitVec.eq_of_getLsbD_eq fun i hi => ?_
  have hbit := congrArg (BitVec.getLsbD · (i + k)) hzero
  have hwidth : i + k < 40 := by omega
  have hwidth' : i < 40 := by omega
  simpa [BitVec.getLsbD_shiftLeft, BitVec.getLsbD_setWidth, hwidth, hwidth'] using hbit

end

/-! ### Folding a sample -/

/-- `CRC * x^DEPTH + v` (40_bitreader R131). -/
def foldInput (d : Depth) (crc : BitVec 16) (v : Sample) : BitVec 40 := (crc.setWidth 40 <<< d.bits) ^^^ v.setWidth 40

section
variable {d : Depth} {a b r : BitVec 16} {c v w : Sample} {j : Nat}

theorem foldInput_xor (d : Depth) (a b : BitVec 16) (v w : Sample) :
    foldInput d (a ^^^ b) (v ^^^ w) = foldInput d a v ^^^ foldInput d b w := by
  rw [foldInput, foldInput, foldInput, BitVec.setWidth_xor, BitVec.setWidth_xor, BitVec.shiftLeft_xor_distrib]
  ac_rfl

theorem foldInput_degree (hv : v.toNat < 2 ^ d.bits) (r : BitVec 16) : DegreeBelow (d.bits + 16) (foldInput d r v) :=
  ((degreeBelow_setWidth r.isLt).shiftLeft d.bits).xor ((degreeBelow_setWidth hv).mono (by omega))

/-- The register stands above the sample's bits. -/
theorem foldInput_eq_or (hv : v.toNat < 2 ^ d.bits) (r : BitVec 16) :
    (r.setWidth 40 <<< d.bits) ||| v.setWidth 40 = foldInput d r v := by
  refine BitVec.eq_of_getLsbD_eq fun i hi => ?_
  rw [foldInput, BitVec.getLsbD_or, BitVec.getLsbD_xor, BitVec.getLsbD_shiftLeft]
  by_cases hd : i < d.bits
  · simp [hd]
  · simp [degreeBelow_setWidth hv i (Nat.le_of_not_lt hd)]

/-- The register after a sample of `DEPTH` bits (40_bitreader R131). -/
theorem crcFold_eq (hv : v.toNat < 2 ^ d.bits) (r : BitVec 16) :
    crcFold d r v = (crcReduce d.bits (foldInput d r v)).setWidth 16 := by rw [crcFold, foldInput_eq_or hv]

/-- No bit of the remainder is cut off. -/
theorem crcFold_setWidth (hv : v.toNat < 2 ^ d.bits) (r : BitVec 16) :
    (crcFold d r v).setWidth 40 = crcReduce d.bits (foldInput d r v) := by
  rw [crcFold_eq hv]
  exact (crcReduce_degree d.bits_le (foldInput_degree hv r)).setWidth_setWidth

theorem zero_lt_two_pow_bits (d : Depth) : (0#24).toNat < 2 ^ d.bits := Nat.two_pow_pos _

theorem xor_lt_two_pow_bits (hv : v.toNat < 2 ^ d.bits) (hw : w.toNat < 2 ^ d.bits) : (v ^^^ w).toNat < 2 ^ d.bits := by
  rw [BitVec.toNat_xor]
  exact Nat.xor_lt_two_pow hv hw

/-- Folding is linear (40_bitreader R131). -/
theorem crcFold_xor (hv : v.toNat < 2 ^ d.bits) (hw : w.toNat < 2 ^ d.bits) (a b : BitVec 16) :
    crcFold d (a ^^^ b) (v ^^^ w) = crcFold d a v ^^^ crcFold d b w := by
  rw [crcFold_eq hv, crcFold_eq hw, crcFold_eq (xor_lt_two_pow_bits hv hw), foldInput_xor, crcReduce_xor,
    BitVec.setWidth_xor]

/-- A register that folds to 0 with a dividend that divides away. -/
theorem crcReduce_eq_zero (hv : v.toNat < 2 ^ d.bits) (h : crcFold d r v = 0#16) :
    crcReduce d.bits (foldInput d r v) = 0#40 := by
  rw [← crcFold_setWidth hv, h]
  rfl

/-- No two registers are folded to one by the same sample. -/
theorem crcFold_injective (hv : v.toNat < 2 ^ d.bits) (h : crcFold d a v = crcFold d b v) : a = b := by
  have hdiff : crcFold d (a ^^^ b) 0#24 = 0#16 := by
    rw [← BitVec.xor_self (x := v), crcFold_xor hv hv, h, BitVec.xor_self]
  have hshift : foldInput d (a ^^^ b) 0#24 = (a ^^^ b).setWidth 40 <<< d.bits := BitVec.xor_zero
  have hred := crcReduce_eq_zero (zero_lt_two_pow_bits d) hdiff
  rw [hshift] at hred
  exact BitVec.xor_eq_zero_iff.mp (eq_zero_of_crcReduce_shiftLeft d.bits_le hred)

/-- One bit of a sample (40_bitreader R139). -/
theorem flip_toNat (hj : j < d.bits) : (1#24 <<< j).toNat = 2 ^ j := by
  have hlt : 2 ^ j < 2 ^ 24 := Nat.pow_lt_pow_right (by decide) (hj.trans_le d.bits_le)
  rw [BitVec.toNat_shiftLeft, Nat.shiftLeft_eq, BitVec.toNat_ofNat, Nat.one_mod_two_pow (by decide), Nat.one_mul,
    Nat.mod_eq_of_lt hlt]

theorem flip_lt (hj : j < d.bits) : (1#24 <<< j).toNat < 2 ^ d.bits := by
  rw [flip_toNat hj]
  exact Nat.pow_lt_pow_right (by decide) hj

/-- A single bit does not divide away: it is `x^j * 1`. -/
theorem crcFold_flip_ne_zero (hj : j < d.bits) : crcFold d 0#16 (1#24 <<< j) ≠ 0#16 := by
  intro h
  have hle := d.bits_le
  have hinput : foldInput d 0#16 (1#24 <<< j) = (1#16).setWidth 40 <<< j := by
    have hlt : 2 ^ j < 2 ^ 40 := Nat.pow_lt_pow_right (by decide) (by omega)
    rw [foldInput, BitVec.setWidth_zero, BitVec.zero_shiftLeft, BitVec.zero_xor]
    refine BitVec.eq_of_toNat_eq ?_
    rw [BitVec.toNat_setWidth, flip_toNat hj, BitVec.toNat_shiftLeft, Nat.shiftLeft_eq]
    simp
  have hred := crcReduce_eq_zero (flip_lt hj) h
  have hone : (1#16).toNat < 2 ^ 16 := (1#16).isLt
  rw [hinput, crcReduce_of_degree hj.le ((degreeBelow_setWidth hone).shiftLeft j)] at hred
  exact absurd (eq_zero_of_crcReduce_shiftLeft (by omega) hred) (by decide)

/-- A flipped bit of a sample changes the register after it. -/
theorem crcFold_flip (hj : j < d.bits) (hv : v.toNat < 2 ^ d.bits) (r : BitVec 16) :
    crcFold d r (v ^^^ (1#24 <<< j)) = crcFold d r v ^^^ crcFold d 0#16 (1#24 <<< j) := by
  rw [← crcFold_xor hv (flip_lt hj), BitVec.xor_zero]

/-- Two registers that differ still differ after the same samples. -/
theorem foldl_crcFold_injective {samples : List Sample} (hs : ∀ w ∈ samples, w.toNat < 2 ^ d.bits)
    (h : samples.foldl (crcFold d) a = samples.foldl (crcFold d) b) : a = b := by
  induction samples generalizing a b with
  | nil => exact h
  | cons w ws ih =>
    exact crcFold_injective (hs w List.mem_cons_self) (ih (fun x hx => hs x (List.mem_cons_of_mem w hx)) h)

/-! ### Codewords -/

theorem lt_two_pow_bits_of_lt (d : Depth) (h : c.toNat < 2 ^ 16) : c.toNat < 2 ^ d.bits :=
  h.trans_le (Nat.pow_le_pow_right (by omega) d.bits_ge)

theorem codewordOf_eq (d : Depth) (r : BitVec 16) : codewordOf d r = (crcFold d r 0#24).setWidth 24 := rfl

/-- A value below `2^16` is its own remainder. -/
theorem crcFold_zero_of_lt (d : Depth) (hc : c.toNat < 2 ^ 16) : crcFold d 0#16 c = c.setWidth 16 := by
  have hinput : foldInput d 0#16 c = c.setWidth 40 := by
    rw [foldInput, BitVec.setWidth_zero, BitVec.zero_shiftLeft, BitVec.zero_xor]
  have hdeg : DegreeBelow (0 + 16) (c.setWidth 40) := degreeBelow_setWidth hc
  rw [crcFold_eq (lt_two_pow_bits_of_lt d hc), hinput, crcReduce_of_degree (Nat.zero_le _) hdeg, crcReduce,
    BitVec.setWidth_setWidth_of_le _ (by decide)]

/-- Folding a value below `2^16` adds it to what folding 0 gives (40_bitreader R139). -/
theorem crcFold_of_lt (d : Depth) (r : BitVec 16) (hc : c.toNat < 2 ^ 16) :
    crcFold d r c = crcFold d r 0#24 ^^^ c.setWidth 16 := by
  rw [← crcFold_zero_of_lt d hc, ← crcFold_xor (zero_lt_two_pow_bits d) (lt_two_pow_bits_of_lt d hc), BitVec.xor_zero,
    BitVec.zero_xor]

end

/-! ### Obligations -/

/-- Settles O29: the flipped bit changes the register after its sample, and no later sample undoes a change. -/
theorem singleBitDetected : Obligations.SingleBitDetected := by
  intro d before after v j hj hv _ hafter hok hflip
  rw [crcOf, List.foldl_append, List.foldl_cons] at hok hflip
  have hsame := foldl_crcFold_injective hafter (hflip.trans hok.symm)
  rw [crcFold_flip hj hv] at hsame
  exact crcFold_flip_ne_zero hj (by simpa using hsame)

/-- Settles O27: the register is the remainder that the division leaves, and the factor the one it takes away. -/
theorem crcFoldIsRemainder : Obligations.CrcFoldIsRemainder := by
  intro s d v hd hv
  obtain ⟨q, hq⟩ := crcReduce_eq d.bits (foldInput d s.br.CRC v)
  refine ⟨crcFold d s.br.CRC v, q, ?_, ?_⟩
  · exact runOp_ok (op_bind_ok (needDepth_some hd))
  · rw [crcFold_setWidth hv, hq, BitVec.xor_comm (foldInput _ _ _), ← BitVec.xor_assoc, BitVec.xor_self, BitVec.zero_xor]
    rfl

/-- Settles O28: below `2^16` folding adds the value itself, so one value alone cancels the register. -/
theorem codewordCloses : Obligations.CodewordCloses := by
  intro d r
  have hlt : (codewordOf d r).toNat < 2 ^ 16 := by
    rw [codewordOf_eq, BitVec.toNat_setWidth]
    exact (Nat.mod_le _ _).trans_lt (crcFold d r 0#24).isLt
  refine ⟨hlt, ?_, fun c hc h => ?_⟩
  · rw [crcFold_of_lt d r hlt, codewordOf_eq, BitVec.setWidth_setWidth_of_le _ (by decide), BitVec.setWidth_eq,
      BitVec.xor_self]
    rfl
  · rw [crcFold_of_lt d r hc] at h
    rw [codewordOf_eq, BitVec.xor_eq_zero_iff.mp h]
    refine BitVec.eq_of_toNat_eq ?_
    rw [BitVec.toNat_setWidth, BitVec.toNat_setWidth, Nat.mod_eq_of_lt hc, Nat.mod_eq_of_lt c.isLt]

end Sys2Proof.Machine
end

section
/-! PROOF. Regions (40_bitreader R136 to R138): their starts and ends, and the key words and codewords by themselves. -/

namespace Sys2Proof.Machine

/-- A key word that has been read (40_bitreader R136). -/
theorem keyWord_run (k : Sample) (s : State) :
    keyWord k s = .ok () (s.setBr { s.br with KEY := k }).regionBegun := by
  rw [keyWord, op_bind_ok (setKey_run k s), beginRegion_run]
  rfl

/-! ### Obligations -/

/-- Settles O30: the operation, which reads a key or not. -/
theorem regionStartResult : Obligations.RegionStartResult := fun _ _ first hs hlen =>
  runOp_ok (regionStartOp_ok hs first hlen)

/-- Settles O31: padding, an overrun that is a fault, and the codeword. -/
theorem segmentEndResult : Obligations.SegmentEndResult := by
  refine ⟨fun s d size r hs => ⟨fun hpad hlen => ?_, fun hfault hover => ?_⟩, fun s d r hs hlen => ?_⟩
  · exact runOp_ok (padsegOp_ok hs size.toNat r hpad hlen)
  · have hraise := padsegOp_past hs.depth r hover
    rw [if_pos hfault] at hraise
    exact runOp_raised hraise
  · exact runOp_ok (crccheckOp_ok hs r hlen)

/-- Settles O32: the pattern of each depth is `keyWord`, or `closeRegion`, of its bits. -/
theorem keyAndCodewordPatterns : Obligations.KeyAndCodewordPatterns := fun s =>
  ⟨fun k => runOp_ok (keyWord_run (k.setWidth 24) s), fun k => runOp_ok (keyWord_run (k.setWidth 24) s),
    fun k => runOp_ok (keyWord_run k s), fun r c => runOp_ok (closeRegion_run r (c.setWidth 24) s),
    fun r c => runOp_ok (closeRegion_run r (c.setWidth 24) s),
    fun r c => runOp_ok (closeRegion_run r c s)⟩

end Sys2Proof.Machine
end

section
/-! PROOF. The burst layer (41_burst R160 to R168): the header words, the two states that read them, and the tests of
`READ_FRAME`. Commands and sequencer states differ only in `ST`, `STATUS` and the returned error, which no operation
below them reads: `State.under` names a state with other values there. -/

namespace Sys2Proof.Machine

/-- The state with these values of `ST`, `STATUS` and the returned error (10_state R26, R30; log 5). -/
def State.under (s : State) (q : Sequencer) (l : Option (ErrVal × SeqState)) : State := (s.setSeq q).setLastErr l

/-- `STATUS` while a command runs: the previous end is cleared (41_burst R160). -/
def Sequencer.begun (q : Sequencer) : Sequencer :=
  { q with DONE := false, ERRK := 0, ERRS := 0, ERRST := 0, BUSY := true }

/-- `ST` and `BUSY` in a sequencer state (10_state R27, R30). -/
def Sequencer.inState (q : Sequencer) (st : SeqState) : Sequencer := { q with ST := st, BUSY := true }

section
variable {s t : State} {d : Depth} {q : Sequencer} {l : Option (ErrVal × SeqState)} {body : Op Unit}
  {st next : SeqState}

/-! ### Commands and sequencer states -/

theorem under_self (s : State) : s.under s.seq s.lastErr = s := rfl

theorem under_entered (s : State) (st : SeqState) : s.entered st = s.under (s.seq.inState st) s.lastErr := rfl

theorem beginCmd_run (s : State) : beginCmd s = .ok () (s.under s.seq.begun none) := rfl

theorem enter_under (st : SeqState) (s : State) (q : Sequencer) (l : Option (ErrVal × SeqState)) :
    enter st (s.under q l) = .ok () (s.under (q.inState st) l) := rfl

/-- A command that runs (41_burst R160). -/
theorem runCommand_idle (hb : s.seq.BUSY = false) (body : Op Unit) :
    runCommand body s = runOp (body >>= fun _ => finishCmd) (s.under s.seq.begun none) := by
  rw [runCommand, if_neg (by simp [hb]), runOp_bind_ok (beginCmd_run s)]

/-- A command whose rule ends, the error fields being clear: it is done (41_burst R160). -/
theorem runCommand_done (hb : s.seq.BUSY = false)
    (h : ∃ q, q.ERRK = 0 ∧ q.ERRS = 0 ∧ q.ERRST = 0 ∧ body (s.under s.seq.begun none) = .ok () (t.under q none)) :
    runCommand body s = .next ((t.setSeq Sequencer.done).setLastErr none) := by
  obtain ⟨⟨st, busy, done, errk, errs, errst⟩, rfl, rfl, rfl, hbody⟩ := h
  rw [runCommand_idle hb, runOp_bind_ok hbody]
  rfl

/-- A command whose rule raises an error (41_burst R160, 60_exceptions R283). -/
theorem runCommand_raised {e : ErrVal} (hb : s.seq.BUSY = false)
    (h : body (s.under s.seq.begun none) = .error (.raised e) t) : runCommand body s = .next (t.latch e) := by
  rw [runCommand_idle hb]
  exact runOp_raised (op_bind_error h)

/-- The operation of a sequencer state and its successor (10_state R27). -/
theorem seqStep_ok (h : body (s.entered st) = .ok () (t.entered st)) :
    runOp (seqStep st body next) s = .next (t.entered next) := by
  rw [seqStep, runOp_enter, runOp_bind_ok h]
  rfl

/-- The operation of a sequencer state that raises an error (60_exceptions R283). -/
theorem seqStep_raised {e : ErrVal} (h : body (s.entered st) = .error (.raised e) t) :
    runOp (seqStep st body next) s = .next (t.latch e) := by
  rw [seqStep, runOp_enter]
  exact runOp_raised (op_bind_error h)

/-! ### Header words -/

theorem advanced_zero (s : State) (n : Nat) : s.advanced (0 * n) = s := by rw [Nat.zero_mul]; rfl

theorem advanced_advanced (s : State) (m n : Nat) : (s.advanced m).advanced n = s.advanced (m + n) := by
  rw [State.advanced, State.advanced, State.advanced, State.setSrc_src, State.setSrc_setSrc, Nat.add_assoc]

theorem advanced_word (s : State) (k : Nat) :
    (s.advanced (k * s.sampleBytes)).advanced s.sampleBytes = s.advanced ((k + 1) * s.sampleBytes) := by
  rw [advanced_advanced, Nat.succ_mul]

theorem advanced_pos (s : State) (n : Nat) : (s.advanced n).src.POS = s.src.POS + n := rfl

/-- The words after a whole number of words (20_memory R63). -/
theorem wordAt_advanced (s : State) (k i : Nat) : (s.advanced (k * s.sampleBytes)).wordAt i = s.wordAt (k + i) := by
  have hpos : s.src.POS + k * s.sampleBytes + i * s.sampleBytes = s.src.POS + (k + i) * s.sampleBytes := by ring
  show wordOfBytes (s.src.MEM.bytesFrom (s.src.POS + k * s.sampleBytes + i * s.sampleBytes) s.sampleBytes) = _
  rw [hpos, State.wordAt]

/-- Header word `k` of a burst is read (41_burst R167, R168). -/
theorem headerWord_at (i : BitVec 2) (k : Nat) (hlen : s.src.POS + (k + 1) * s.sampleBytes ≤ s.src.MEM.len) :
    headerWord i (s.advanced (k * s.sampleBytes)) = .ok (s.wordAt k) (s.advanced ((k + 1) * s.sampleBytes)) := by
  have hin : (s.advanced (k * s.sampleBytes)).src.POS + s.sampleBytes ≤ s.src.MEM.len := by
    rw [advanced_pos, Nat.add_assoc, ← Nat.succ_mul]
    exact hlen
  rw [headerWord_run, if_pos (by exact hin), wordAt_advanced, Nat.add_zero, ← advanced_word]
  rfl

/-- Header word `k` of a burst is missing (41_burst R167, R168). -/
theorem headerWord_missing (i : BitVec 2) (k : Nat) (hlen : s.src.MEM.len < s.src.POS + (k + 1) * s.sampleBytes) :
    headerWord i (s.advanced (k * s.sampleBytes))
      = .error (.raised (.atHeader i)) (s.advanced (k * s.sampleBytes)) := by
  have hend : ¬(s.advanced (k * s.sampleBytes)).src.POS + s.sampleBytes ≤ s.src.MEM.len := by
    rw [advanced_pos, Nat.add_assoc, ← Nat.succ_mul]
    exact Nat.not_le.mpr hlen
  rw [headerWord_run, if_neg (by exact hend)]

theorem headerWord_first (i : BitVec 2) (hlen : s.src.POS + s.sampleBytes ≤ s.src.MEM.len) :
    headerWord i s = .ok (s.wordAt 0) (s.advanced s.sampleBytes) := by
  rw [headerWord_run, if_pos hlen]
  rfl

theorem headerWord_second (i : BitVec 2) (hlen : s.src.POS + 2 * s.sampleBytes ≤ s.src.MEM.len) :
    headerWord i (s.advanced s.sampleBytes) = .ok (s.wordAt 1) (s.advanced (2 * s.sampleBytes)) := by
  simpa only [Nat.one_mul] using headerWord_at (s := s) i 1 hlen

theorem headerWord_second_missing (i : BitVec 2) (hlen : s.src.MEM.len < s.src.POS + 2 * s.sampleBytes) :
    headerWord i (s.advanced s.sampleBytes) = .error (.raised (.atHeader i)) (s.advanced s.sampleBytes) := by
  simpa only [Nat.one_mul] using headerWord_missing (s := s) i 1 hlen

/-! ### PREAMBLE -/

/-- `PREAMBLE` once its first word has selected a depth (41_burst R167). -/
theorem preambleOp_selected (hlen : s.src.POS + s.sampleBytes ≤ s.src.MEM.len)
    (h : preamble1Depth (s.wordAt 0) = some d) :
    preambleOp s = (headerWord 1 >>= confirmDepth) ((s.advanced s.sampleBytes).setPd (some d)) := by
  have hsel : selectDepth d (s.advanced s.sampleBytes) = .ok () ((s.advanced s.sampleBytes).setPd (some d)) := rfl
  rw [preambleOp, op_bind_ok (headerWord_first 0 hlen), h]
  exact op_bind_ok hsel

/-- `PREAMBLE` on a first word that is the last word of the stream (41_burst R167). -/
theorem preambleOp_cut (hlen : s.src.POS + s.sampleBytes ≤ s.src.MEM.len) (h : preamble1Depth (s.wordAt 0) = some d)
    (hend : s.src.MEM.len < s.src.POS + 2 * s.sampleBytes) :
    preambleOp s = .error (.raised (.atHeader 1)) ((s.advanced s.sampleBytes).setPd (some d)) := by
  rw [preambleOp_selected hlen h]
  exact op_bind_error (headerWord_second_missing (s := s.setPd (some d)) 1 hend)

/-- `PREAMBLE` on a first word without its companion (41_burst R167). -/
theorem preambleOp_noCompanion (hlen : s.src.POS + 2 * s.sampleBytes ≤ s.src.MEM.len)
    (h : preamble1Depth (s.wordAt 0) = some d) (hne : s.wordAt 1 ≠ d.preamble2) :
    preambleOp s = .error (.raised (.badPreamble2 (s.wordAt 1))) ((s.advanced (2 * s.sampleBytes)).setPd (some d)) := by
  have hsecond : headerWord 1 ((s.advanced s.sampleBytes).setPd (some d))
      = .ok (s.wordAt 1) ((s.advanced (2 * s.sampleBytes)).setPd (some d)) :=
    headerWord_second (s := s.setPd (some d)) 1 hlen
  rw [preambleOp_selected (by omega) h, op_bind_ok hsecond, confirmDepth_run (d := d) rfl, if_neg hne]

/-- A second preamble word that does not go with what the first one selected (41_burst R167). -/
theorem confirmDepth_refuses (h : s.pd ≠ some d) :
    confirmDepth d.preamble2 s = .error (.raised (.badPreamble2 d.preamble2)) s := by
  have hinj : ∀ d' : Depth, d.preamble2 = d'.preamble2 → d' = d := by
    cases d <;> intro d' <;> cases d' <;> decide
  cases hpd : s.pd with
  | none =>
    rw [confirmDepth, op_bind_ok (op_get s), hpd]
    rfl
  | some d' => rw [confirmDepth_run hpd, if_neg fun he => h (hpd.trans (congrArg some (hinj d' he)))]

/-! ### BURSTINFO and the tests of `READ_FRAME` -/

/-- `BURSTINFO` (41_burst R168). -/
theorem burstinfoOp_ok (hlen : s.src.POS + 2 * s.sampleBytes ≤ s.src.MEM.len) :
    burstinfoOp s = .ok () s.withBurst := by
  rw [burstinfoOp, op_bind_ok (headerWord_first 2 (by omega)), op_bind_ok (headerWord_second 3 hlen),
    op_bind_ok (burstWord2_run _ _), burstWord1_run]
  rfl

theorem burstinfoOp_end (hlen : s.src.MEM.len < s.src.POS + s.sampleBytes) :
    burstinfoOp s = .error (.raised (.atHeader 2)) s := by
  rw [burstinfoOp, op_bind_error (by rw [headerWord_run, if_neg (by omega)])]

theorem burstinfoOp_cut (hlen : s.src.POS + s.sampleBytes ≤ s.src.MEM.len)
    (hend : s.src.MEM.len < s.src.POS + 2 * s.sampleBytes) :
    burstinfoOp s = .error (.raised (.atHeader 3)) (s.advanced s.sampleBytes) := by
  rw [burstinfoOp, op_bind_ok (headerWord_first 2 hlen), op_bind_error (headerWord_second_missing 3 hend)]

/-- Type 28 is met (41_burst R164). -/
theorem acceptBurst_type28 (h : s.bi.BI_DTYPE = 28) :
    acceptBurst s = (whenOp s.cfg.STREAMS2 refuseOddLength >>= fun _ => payloadInitOp) s := by
  rw [acceptBurst, op_bind_ok (op_get s), if_pos (by exact h)]

/-- The test of the data type (41_burst R164). -/
theorem acceptBurst_otherType (h : s.bi.BI_DTYPE ≠ 28) :
    acceptBurst s = .error (.raised (.notDolbyE s.bi.BI_DTYPE)) s := by
  rw [acceptBurst, op_bind_ok (op_get s), if_neg (by exact h)]
  rfl

theorem refuseOddLength_run (hd : s.br.DEPTH = some d) :
    refuseOddLength s = if s.bi.BI_BITLEN.toNat / d.bits % 2 = 1 then .error (.raised (.oddLength s.bi.BI_BITLEN)) s
      else .ok () s := by
  rw [refuseOddLength, op_bind_ok (needDepth_some hd), op_bind_ok (op_get s)]
  split_ifs <;> rfl

/-- A burst that `READ_FRAME` accepts (41_burst R164, 40_bitreader R132). -/
theorem acceptBurst_ok (h28 : s.bi.BI_DTYPE = 28)
    (heven : s.cfg.STREAMS2 = true → ∃ d, s.br.DEPTH = some d ∧ s.bi.BI_BITLEN.toNat / d.bits % 2 = 0) :
    acceptBurst s = .ok () s.afterPayloadInit := by
  have htest : whenOp s.cfg.STREAMS2 refuseOddLength s = .ok () s := by
    cases htwo : s.cfg.STREAMS2 with
    | false => rfl
    | true =>
      obtain ⟨d, hd, hmod⟩ := heven htwo
      rw [whenOp_true, refuseOddLength_run hd, if_neg (by omega)]
  rw [acceptBurst_type28 h28, op_bind_ok htest]
  rfl

/-- The test of the length (41_burst R164). -/
theorem acceptBurst_odd (h28 : s.bi.BI_DTYPE = 28) (htwo : s.cfg.STREAMS2 = true) (hd : s.br.DEPTH = some d)
    (hodd : s.bi.BI_BITLEN.toNat / d.bits % 2 = 1) :
    acceptBurst s = .error (.raised (.oddLength s.bi.BI_BITLEN)) s := by
  rw [acceptBurst_type28 h28, htwo, whenOp_true, op_bind_error (by rw [refuseOddLength_run hd, if_pos hodd])]

/-- The test of the length before any depth is set (log 12). -/
theorem acceptBurst_noDepth (h28 : s.bi.BI_DTYPE = 28) (htwo : s.cfg.STREAMS2 = true) (hd : s.br.DEPTH = none) :
    acceptBurst s = .error (.refused .noDepth) s := by
  have htest : refuseOddLength s = .error (.refused .noDepth) s := by
    rw [refuseOddLength, op_bind_error (needDepth_none hd)]
  rw [acceptBurst_type28 h28, htwo, whenOp_true, op_bind_error htest]

/-! ### `READ_FRAME` up to its tests -/

/-- The states of `READ_FRAME` that read the words of a burst (41_burst R164). -/
def burstStates : Op Unit := do
  enter .preamble
  preambleOp
  enter .burstinfo
  burstinfoOp

/-- The states of `READ_FRAME` that read the payload (41_burst R164). -/
def payloadStates : Op Unit := do
  enter .sync
  syncOp
  enter .metadata
  metadataOp
  enter .framedist
  framedistOp
  enter .progmeta
  progmetaOp
  enter .chanmeta
  chanmetaOp
  enter .mdsubseg
  mdsubsegOp
  enter .audio
  audioOp
  let s ← get
  whenOp s.fr.LFR extensionStates
  enter .meter
  meterOp
  enter .complete
  completeOp

theorem readFrameOp_eq : readFrameOp = burstStates >>= fun _ => acceptBurst >>= fun _ => payloadStates := by
  simp only [readFrameOp, burstStates, payloadStates, bind_assoc]

/-- The words of a burst (41_burst R167, R168). -/
theorem burstStates_ok (h1 : s.wordAt 0 = d.preamble1) (h2 : s.wordAt 1 = d.preamble2)
    (hlen : s.src.POS + 4 * s.sampleBytes ≤ s.src.MEM.len) (q : Sequencer) (l : Option (ErrVal × SeqState)) :
    burstStates (s.under q l) = .ok () ((s.afterPreamble d).withBurst.under (q.inState .burstinfo) l) := by
  have hpre : preambleOp (s.under (q.inState .preamble) l)
      = .ok () ((s.afterPreamble d).under (q.inState .preamble) l) := by
    refine preambleOp_ok (s := s.under (q.inState .preamble) l) h1 h2 ?_
    show s.src.POS + 2 * s.sampleBytes ≤ s.src.MEM.len
    omega
  have hburst : burstinfoOp ((s.afterPreamble d).under (q.inState .burstinfo) l)
      = .ok () ((s.afterPreamble d).withBurst.under (q.inState .burstinfo) l) := by
    refine burstinfoOp_ok (s := (s.afterPreamble d).under (q.inState .burstinfo) l) ?_
    show s.src.POS + 2 * s.sampleBytes + 2 * s.sampleBytes ≤ s.src.MEM.len
    omega
  rw [burstStates, op_bind_ok (enter_under _ s q l), op_bind_ok hpre, op_bind_ok (enter_under _ _ _ l)]
  exact hburst

/-- `READ_FRAME` on a burst that its tests refuse (41_burst R164). -/
theorem exec_readFrame_refused {e : ErrVal} (hb : s.seq.BUSY = false) (h1 : s.wordAt 0 = d.preamble1)
    (h2 : s.wordAt 1 = d.preamble2) (hlen : s.src.POS + 4 * s.sampleBytes ≤ s.src.MEM.len)
    (h : ∀ q l, acceptBurst ((s.afterPreamble d).withBurst.under q l)
      = .error (.raised e) ((s.afterPreamble d).withBurst.under q l)) :
    exec .readFrame s = .next ((((s.afterPreamble d).withBurst).entered .burstinfo).latch e) := by
  refine runCommand_raised (body := readFrameOp)
    (t := (s.afterPreamble d).withBurst.under (s.seq.begun.inState .burstinfo) none) hb ?_
  rw [readFrameOp_eq, op_bind_ok (burstStates_ok h1 h2 hlen _ _), op_bind_error (h _ _)]

/-- A step at the state BURSTINFO whose two words are there goes on to the tests of `READ_FRAME` (log 27). -/
theorem step_burstinfo_read (hst : s.seq.ST = .burstinfo) (hp : s.port = [])
    (hlen : s.src.POS + 2 * s.sampleBytes ≤ s.src.MEM.len) :
    step s = runOp (acceptBurst >>= fun _ => enter .sync) (s.withBurst.entered .burstinfo) := by
  have hread : burstinfoOp (s.entered .burstinfo) = .ok () (s.withBurst.entered .burstinfo) :=
    burstinfoOp_ok (s := s.entered .burstinfo) hlen
  rw [step_burstinfo hst hp, seqStep, runOp_enter, bind_assoc, runOp_bind_ok hread]

end

/-! ### Obligations -/

/-- Settles O15: the instruction answers the state it was given. -/
theorem nopChangesNothing : Obligations.NopChangesNothing := fun _ => rfl

/-- A command while `BUSY = 1` (41_burst R160). -/
theorem runCommand_busy {s : State} (hb : s.seq.BUSY = true) (body : Op Unit) : runCommand body s = .next s := by
  rw [runCommand, if_pos hb]

/-- Settles O17: all four are commands. -/
theorem busyIgnoresCommand : Obligations.BusyIgnoresCommand := fun _ hb =>
  ⟨runCommand_busy hb readFrameOp, runCommand_busy hb probeOp, runCommand_busy hb srcAlignOp,
    runCommand_busy hb clearOp⟩

/-- Settles O18: both operations are updates. -/
theorem clearResets : Obligations.ClearResets := by
  refine ⟨fun s => runOp_ok (payloadInitOp_run s), fun s hb => runCommand_done (body := clearOp) hb ?_⟩
  have hinit : payloadInitOp (s.under s.seq.begun none) = .ok () (s.afterPayloadInit.under s.seq.begun none) :=
    payloadInitOp_run _
  refine ⟨⟨s.seq.ST, false, false, 0, 0, 0⟩, rfl, rfl, rfl, ?_⟩
  rw [clearOp, op_bind_ok hinit, op_bind_ok (updBr_run _ _), updSeq_run]
  rfl

/-- Settles O33: one lemma per word. -/
theorem burstPatterns : Obligations.BurstPatterns := fun s =>
  have hconfirm : ∀ d : Depth, s.pd = some d →
      runOp (confirmDepth d.preamble2) s = .next (s.setBr { s.br with DEPTH := some d }) := fun _ hpd =>
    runOp_ok (by rw [confirmDepth_run hpd, if_pos rfl])
  have hrefuse : ∀ d : Depth, s.pd ≠ some d →
      runOp (confirmDepth d.preamble2) s = .next (s.latch (.badPreamble2 d.preamble2)) := fun _ hpd =>
    runOp_raised (confirmDepth_refuses hpd)
  ⟨rfl, rfl, rfl, hconfirm .d16, hconfirm .d20, hconfirm .d24, hrefuse .d16, hrefuse .d20, hrefuse .d24,
    fun n dtd e m t _ => runOp_ok (burstWord1_run n dtd e m t s), fun len _ => runOp_ok (burstWord2_run len s)⟩

/-- Settles O34: the operation is `preambleOp_ok`. -/
theorem preambleSetsDepth : Obligations.PreambleSetsDepth := fun s _ h1 h2 hlen =>
  seqStep_ok (preambleOp_ok (s := s.entered .preamble) h1 h2 hlen)

/-- Settles O35: the operation, the tests, and the step that runs both. -/
theorem burstinfoAccepts : Obligations.BurstinfoAccepts := by
  refine ⟨fun s hlen => ?_, fun s h28 heven => ?_, fun s hst hp hlen h28 heven => ?_⟩
  · exact seqStep_ok (burstinfoOp_ok (s := s.entered .burstinfo) hlen)
  · exact seqStep_ok (acceptBurst_ok (s := s.entered .burstinfo) h28 heven)
  · rw [step_burstinfo_read hst hp hlen,
      runOp_bind_ok (acceptBurst_ok (s := s.withBurst.entered .burstinfo) h28 heven)]
    rfl

/-- Settles O36: each clause is one way the burst layer raises. -/
theorem burstTraps : Obligations.BurstTraps := by
  refine ⟨fun s => ⟨fun hend => ⟨?_, ?_⟩, fun hlen hnone => ?_, fun hlen hend => ?_⟩,
    fun s d hsome hlen => ⟨fun hend => ?_, fun hlen2 hne => ?_⟩,
    fun s d hb h1 h2 hlen => ⟨fun htype => ?_, fun h28 htwo hodd => ?_⟩,
    fun s hst hp hlen => ⟨fun htype => ?_, fun h28 htwo => ⟨fun d hd hodd => ?_, fun hd => ?_⟩⟩⟩
  · exact seqStep_raised (preambleOp_end (s := s.entered .preamble) (Nat.not_le.mpr hend))
  · exact seqStep_raised (burstinfoOp_end (s := s.entered .burstinfo) hend)
  · exact seqStep_raised (preambleOp_noMatch (s := s.entered .preamble) hlen hnone)
  · exact seqStep_raised (burstinfoOp_cut (s := s.entered .burstinfo) hlen hend)
  · exact seqStep_raised (preambleOp_cut (s := s.entered .preamble) hlen hsome hend)
  · exact seqStep_raised (preambleOp_noCompanion (s := s.entered .preamble) hlen2 hsome hne)
  · exact exec_readFrame_refused hb h1 h2 hlen fun q l =>
      acceptBurst_otherType (s := (s.afterPreamble d).withBurst.under q l) htype
  · exact exec_readFrame_refused hb h1 h2 hlen fun q l =>
      acceptBurst_odd (s := (s.afterPreamble d).withBurst.under q l) (d := d) h28 htwo rfl hodd
  · rw [step_burstinfo_read hst hp hlen]
    exact runOp_raised (op_bind_error (acceptBurst_otherType (s := s.withBurst.entered .burstinfo) htype))
  · rw [step_burstinfo_read hst hp hlen]
    exact runOp_raised (op_bind_error (acceptBurst_odd (s := s.withBurst.entered .burstinfo) h28 htwo hd hodd))
  · rw [step_burstinfo_read hst hp hlen]
    exact runOp_refused (op_bind_error (acceptBurst_noDepth (s := s.withBurst.entered .burstinfo) h28 htwo hd))

end Sys2Proof.Machine
end

section
/-! PROOF. The probe (41_burst R165, R166): how the try of a candidate ends, one turn of the scan, and the scan along a
`ProbeWalk`, whose turns bring it to the walk's end with fuel to spare. -/

namespace Sys2Proof.Machine

section
variable {s t u : State} {d : Depth} {fuel off off' : Nat} {e : ErrVal}

/-! ### The try of a candidate -/

theorem srcResetOp_mark (h : s.src.MARK_V = true) :
    srcResetOp s = .ok () (s.setSrc { s.src with POS := s.src.MARKPOS }) := by rw [srcResetOp_run, if_pos h]

/-- The position goes back to the mark before `PREAMBLE` is tried (41_burst R166). -/
theorem tryCandidate_marked (s : State) : tryCandidate (s.marked.advanced s.sampleBytes) =
    (attempt preambleOp >>= fun ok => srcResetOp >>= fun _ => pure ok) s.marked := by
  have hback : srcResetOp (s.marked.advanced s.sampleBytes) = .ok () s.marked := rfl
  rw [tryCandidate, op_bind_ok hback]

/-- A FormatError of `PREAMBLE` is caught (41_burst R166). -/
theorem tryCandidate_caught (h : preambleOp s.marked = .error (.raised e) t) (he : errKind e = .format)
    (hm : t.src.MARK_V = true) :
    tryCandidate (s.marked.advanced s.sampleBytes) = .ok false (t.setSrc { t.src with POS := t.src.MARKPOS }) := by
  have htry : attempt preambleOp s.marked = .ok false t := by
    rw [attempt, h]
    exact if_pos he
  rw [tryCandidate_marked, op_bind_ok htry, op_bind_ok (srcResetOp_mark hm), op_pure]

/-- A candidate with its two words (41_burst R166, R167). -/
theorem tryCandidate_found (h1 : s.wordAt 0 = d.preamble1) (h2 : s.wordAt 1 = d.preamble2)
    (hlen : s.src.POS + 2 * s.sampleBytes ≤ s.src.MEM.len) :
    tryCandidate (s.marked.advanced s.sampleBytes)
      = .ok true ((s.marked.setPd (some d)).setBr { s.br with DEPTH := some d }) := by
  have htry : attempt preambleOp s.marked = .ok true (s.marked.afterPreamble d) := by
    rw [attempt, preambleOp_ok (s := s.marked) h1 h2 hlen]
  have hback : srcResetOp (s.marked.afterPreamble d)
      = .ok () ((s.marked.setPd (some d)).setBr { s.br with DEPTH := some d }) := rfl
  rw [tryCandidate_marked, op_bind_ok htry, op_bind_ok hback, op_pure]

/-- A candidate that is refused leaves the position at the mark (41_burst R166). -/
theorem tryCandidate_failed (hlen : s.src.POS + s.sampleBytes ≤ s.src.MEM.len) (h : s.FailedCandidate) :
    tryCandidate (s.marked.advanced s.sampleBytes) = .ok false (s.marked.setPd s.candidateDepth) := by
  obtain ⟨-, hnone | ⟨d, hsome, hlen2, hne⟩⟩ := h
  · rw [tryCandidate_noMatch hlen hnone, State.candidateDepth, hnone]
    rfl
  · rw [tryCandidate_caught (preambleOp_noCompanion (s := s.marked) hlen2 hsome hne) rfl rfl,
      State.candidateDepth, hsome]
    rfl

/-- The end of the stream inside a candidate is not caught (41_burst R166). -/
theorem tryCandidate_cut (hlen : s.src.POS + s.sampleBytes ≤ s.src.MEM.len)
    (hend : s.src.MEM.len < s.src.POS + 2 * s.sampleBytes) (h : preamble1Depth (s.wordAt 0) = some d) :
    tryCandidate (s.marked.advanced s.sampleBytes)
      = .error (.raised (.atHeader 1)) ((s.marked.setPd (some d)).advanced s.sampleBytes) := by
  have htry : attempt preambleOp s.marked
      = .error (.raised (.atHeader 1)) ((s.marked.setPd (some d)).advanced s.sampleBytes) := by
    rw [attempt, preambleOp_cut (s := s.marked) hlen h hend]
    rfl
  rw [tryCandidate_marked, op_bind_error htry]

/-! ### One turn of the scan -/

theorem repeatOp_stepPast_ok (off n : Nat) (hlen : s.src.POS + n * s.sampleBytes ≤ s.src.MEM.len) :
    repeatOp (stepPast off) n s = .ok () (s.advanced (n * s.sampleBytes)) := by
  induction n generalizing s with
  | zero => rw [repeatOp_zero, advanced_zero]
  | succ n ih =>
    rw [Nat.succ_mul] at hlen
    have hrest : (s.advanced s.sampleBytes).src.POS + n * s.sampleBytes ≤ s.src.MEM.len := by
      rw [advanced_pos]
      omega
    rw [repeatOp_succ, stepPast_run, if_pos (by omega), Nat.succ_mul, Nat.add_comm, ← advanced_advanced]
    exact ih (s := s.advanced s.sampleBytes) hrest

/-- A failed candidate is passed by one unit per stream (41_burst R166). -/
theorem probeFrom_failed (hin : off < s.cfg.PROBE_WINDOW.toNat)
    (hlen : s.src.POS + s.streams * s.sampleBytes ≤ s.src.MEM.len) (h : s.FailedCandidate) :
    probeFrom (fuel + 1) off s = probeFrom fuel (off + s.streams * s.sampleBytes)
      ((s.marked.setPd s.candidateDepth).advanced (s.streams * s.sampleBytes)) := by
  have hword : 1 * s.sampleBytes ≤ s.streams * s.sampleBytes := Nat.mul_le_mul_right _ (streams_pos s)
  have hpast : repeatOp (stepPast off) s.streams (s.marked.setPd s.candidateDepth)
      = .ok () ((s.marked.setPd s.candidateDepth).advanced (s.streams * s.sampleBytes)) :=
    repeatOp_stepPast_ok off s.streams hlen
  rw [probeFrom_candidate (by omega) (by omega) h.1, op_bind_ok (tryCandidate_failed (by omega) h),
    if_neg Bool.false_ne_true, op_bind_ok hpast]

theorem preamble1_ne_zero (d : Depth) : d.preamble1 ≠ 0 := by cases d <;> decide

theorem preamble1Depth_zero : preamble1Depth 0 = none := by decide

theorem probeFound_run (off : Nat) (s : State) : probeFound off s = .ok ()
    ((s.setCfg { s.cfg with PROBE_OFF := BitVec.ofNat 32 off }).setEv
      (if s.cfg.PROBE_LATE.toNat < off then s.ev ++ [.probeLate off] else s.ev)) := by
  rw [probeFound, op_bind_ok (update_run _ s), op_bind_ok (op_get _)]
  by_cases hlate : s.cfg.PROBE_LATE.toNat < off
  · have htest : decide (s.cfg.PROBE_LATE.toNat < off) = true := decide_eq_true hlate
    rw [State.setCfg_cfg, htest, if_pos hlate]
    rfl
  · have htest : decide (s.cfg.PROBE_LATE.toNat < off) = false := decide_eq_false hlate
    rw [State.setCfg_cfg, htest, if_neg hlate]
    rfl

/-- The probe meets a preamble (41_burst R166). -/
theorem probeFrom_found (hin : off < s.cfg.PROBE_WINDOW.toNat) (h1 : s.wordAt 0 = d.preamble1)
    (h2 : s.wordAt 1 = d.preamble2) (hlen : s.src.POS + 2 * s.sampleBytes ≤ s.src.MEM.len) :
    probeFrom (fuel + 1) off s = .ok () (s.afterProbe d off) := by
  have h0 : s.wordAt 0 ≠ 0 := h1 ▸ preamble1_ne_zero d
  rw [probeFrom_candidate (by omega) (by omega) h0, op_bind_ok (tryCandidate_found h1 h2 hlen), if_pos rfl,
    probeFound_run]
  rfl

/-- The stream ends inside a candidate (41_burst R166, R167). -/
theorem probeFrom_cut (hin : off < s.cfg.PROBE_WINDOW.toNat) (hlen : s.src.POS + s.sampleBytes ≤ s.src.MEM.len)
    (hend : s.src.MEM.len < s.src.POS + 2 * s.sampleBytes) (h : preamble1Depth (s.wordAt 0) = some d) :
    probeFrom (fuel + 1) off s
      = .error (.raised (.atHeader 1)) ((s.marked.setPd (some d)).advanced s.sampleBytes) := by
  have h0 : s.wordAt 0 ≠ 0 := by
    intro h0
    rw [h0, preamble1Depth_zero] at h
    cases h
  rw [probeFrom_candidate (by omega) hlen h0, op_bind_error (tryCandidate_cut hlen hend h)]

/-- The stream of two-stream mode ends on the step past a failed candidate (41_burst R166). -/
theorem probeFrom_pastEnd (hin : off < s.cfg.PROBE_WINDOW.toNat) (hlen : s.src.POS + s.sampleBytes ≤ s.src.MEM.len)
    (hend : s.src.MEM.len < s.src.POS + 2 * s.sampleBytes) (h : preamble1Depth (s.wordAt 0) = none)
    (h0 : s.wordAt 0 ≠ 0) (htwo : s.cfg.STREAMS2 = true) :
    probeFrom (fuel + 1) off s = .error (.raised (.inProbe off)) (s.marked.advanced s.sampleBytes) := by
  have hstreams : s.streams = 2 := by rw [State.streams, if_pos htwo]
  have hpast : repeatOp (stepPast off) 2 s.marked
      = .error (.raised (.inProbe off)) (s.marked.advanced s.sampleBytes) := by
    have hsecond : ¬(s.marked.advanced s.sampleBytes).src.POS + s.sampleBytes ≤ s.src.MEM.len := by
      rw [advanced_pos]
      show ¬s.src.POS + s.sampleBytes + s.sampleBytes ≤ s.src.MEM.len
      omega
    have hfirst : stepPast off s.marked = .ok () (s.marked.advanced s.sampleBytes) := by
      rw [stepPast_run]
      exact if_pos hlen
    have hmiss : stepPast off (s.marked.advanced s.sampleBytes)
        = .error (.raised (.inProbe off)) (s.marked.advanced s.sampleBytes) := by
      rw [stepPast_run]
      exact if_neg hsecond
    rw [repeatOp_succ, hfirst]
    dsimp only
    rw [repeatOp_succ, hmiss]
  rw [probeFrom_noMatch (by omega) hlen h0 h, hstreams, op_bind_error hpast]

/-! ### Along a walk -/

/-- A walk does not look at `ST`, `STATUS` and the returned error. -/
theorem ProbeWalk.under (h : ProbeWalk s off t off') (q : Sequencer) (l : Option (ErrVal × SeqState)) :
    ProbeWalk (s.under q l) off (t.under q l) off' := by
  induction h with
  | here s off => exact .here _ _
  | zero s t off off' hin hlen h0 _ ih => exact .zero _ _ _ _ hin hlen h0 ih
  | failed s t off off' hin hlen hfail _ ih => exact .failed _ _ _ _ hin hlen hfail ih

/-- What a walk leaves as it was, and where it gets to. -/
theorem ProbeWalk.frame (h : ProbeWalk s off t off') :
    t.br = s.br ∧ t.cfg = s.cfg ∧ t.ev = s.ev ∧ t.seq = s.seq ∧ t.lastErr = s.lastErr ∧
      t.src.POS + off = s.src.POS + off' := by
  induction h with
  | here s off => exact ⟨rfl, rfl, rfl, rfl, rfl, rfl⟩
  | zero s t off off' _ _ _ _ ih =>
    obtain ⟨hbr, hcfg, hev, hseq, hlast, hpos⟩ := ih
    have hpos' : t.src.POS + (off + s.sampleBytes) = s.src.POS + s.sampleBytes + off' := hpos
    exact ⟨hbr, hcfg, hev, hseq, hlast, by omega⟩
  | failed s t off off' _ _ _ _ ih =>
    obtain ⟨hbr, hcfg, hev, hseq, hlast, hpos⟩ := ih
    have hpos' : t.src.POS + (off + s.streams * s.sampleBytes) = s.src.POS + s.streams * s.sampleBytes + off' := hpos
    exact ⟨hbr, hcfg, hev, hseq, hlast, by omega⟩

/-- The scan goes along a walk and has fuel left at its end, if its fuel covers the rest of the stream (log 24). -/
theorem ProbeWalk.scan (h : ProbeWalk s off t off') (hfuel : s.src.MEM.len - s.src.POS < fuel) :
    ∃ left, probeFrom fuel off s = probeFrom (left + 1) off' t := by
  induction h generalizing fuel with
  | here s off => exact ⟨fuel - 1, by rw [Nat.sub_add_cancel (by omega)]⟩
  | zero s t off off' hin hlen h0 _ ih =>
    have hbytes := sampleBytes_ge s
    obtain ⟨fuel, rfl⟩ : ∃ k, fuel = k + 1 := ⟨fuel - 1, by omega⟩
    have hrest : s.src.MEM.len - (s.src.POS + s.sampleBytes) < fuel := by omega
    obtain ⟨left, hgo⟩ := ih hrest
    exact ⟨left, (probeFrom_zeroWord (by omega) hlen h0).trans hgo⟩
  | failed s t off off' hin hlen hfail _ ih =>
    have hstep : 1 * 3 ≤ s.streams * s.sampleBytes := Nat.mul_le_mul (streams_pos s) (sampleBytes_ge s)
    obtain ⟨fuel, rfl⟩ : ∃ k, fuel = k + 1 := ⟨fuel - 1, by omega⟩
    have hrest : s.src.MEM.len - (s.src.POS + s.streams * s.sampleBytes) < fuel := by omega
    obtain ⟨left, hgo⟩ := ih hrest
    exact ⟨left, (probeFrom_failed hin hlen hfail).trans hgo⟩

/-- `PROBESCAN` goes along a walk from the start of its window. -/
theorem probescanOp_walk (h : ProbeWalk s 0 t off) (q : Sequencer) (l : Option (ErrVal × SeqState)) :
    ∃ left, probescanOp (s.under q l) = probeFrom (left + 1) off (t.under q l) :=
  (h.under q l).scan (Nat.lt_succ_self _)

theorem probeOp_under (s : State) (q : Sequencer) (l : Option (ErrVal × SeqState)) :
    probeOp (s.under q l) = probescanOp (s.under (q.inState .probescan) l) := by
  rw [probeOp, op_bind_ok (enter_under _ s q l)]

/-- The state and the command that run the scan end with the error it raises at the end of a walk (60_exceptions
R283). -/
theorem probe_raises (h : ProbeWalk s 0 t off)
    (hend : ∀ left q l, probeFrom (left + 1) off (t.under q l) = .error (.raised e) (u.under q l)) {i : Instr}
    (hi : i = .probescan ∨ i = .probe ∧ s.seq.BUSY = false) :
    exec i s = .next ((u.entered .probescan).raisedAs e (kindCode (errKind e)) (errSub e)) := by
  have hscan : ∀ q l, probescanOp (s.under q l) = .error (.raised e) (u.under q l) := fun q l => by
    obtain ⟨left, hgo⟩ := probescanOp_walk h q l
    rw [hgo, hend]
  rcases hi with rfl | ⟨rfl, hb⟩
  · show runOp (lastStep .probescan probescanOp) s = _
    rw [lastStep, runOp_enter, under_entered]
    exact runOp_raised (t := u.under (s.seq.inState .probescan) s.lastErr) (op_bind_error (hscan _ _))
  · refine runCommand_raised (body := probeOp) (t := u.under (s.seq.begun.inState .probescan) none) hb ?_
    rw [probeOp_under, hscan]

end

/-! ### Obligations -/

/-- Settles O38: the scan goes along the walk and meets the preamble at its end. -/
theorem probeFinds : Obligations.ProbeFinds := by
  intro s t d off hwalk hin h1 h2 hlen
  have hfound : ∀ q l, probescanOp (s.under q l) = .ok () ((t.afterProbe d off).under q l) := fun q l => by
    obtain ⟨left, hgo⟩ := probescanOp_walk hwalk q l
    rw [hgo, probeFrom_found (s := t.under q l) hin h1 h2 hlen]
    rfl
  obtain ⟨-, -, -, hseq, hlast, -⟩ := hwalk.frame
  constructor
  · have hentered : s.entered .probescan = s.under (t.seq.inState .probescan) t.lastErr := by
      rw [hseq, hlast, under_entered]
    show runOp (lastStep .probescan probescanOp) s = _
    rw [lastStep, runOp_enter, hentered, runOp_bind_ok (hfound _ _)]
    rfl
  · intro hb
    refine runCommand_done (body := probeOp) hb ⟨s.seq.begun.inState .probescan, rfl, rfl, rfl, ?_⟩
    rw [probeOp_under, hfound]

/-- Settles O39: the scan goes along the walk and raises at its end. -/
theorem probeGivesUp : Obligations.ProbeGivesUp := by
  intro s t off hwalk
  obtain ⟨hbr, hcfg, hev, -, -, hpos⟩ := hwalk.frame
  refine ⟨hbr, hcfg, hev, hpos, fun hwin i hi => ?_, fun hin hend i hi => ?_, fun hin hlen hend i hi =>
    ⟨fun d hsome => ?_, fun hnone h0 htwo => ?_⟩⟩
  · exact probe_raises hwalk (e := .noPreamble off) (fun _ q l => probeFrom_window (s := t.under q l) hwin) hi
  · exact probe_raises hwalk (e := .inProbe off) (u := t.marked)
      (fun _ q l => probeFrom_end (s := t.under q l) (Nat.not_le.mpr hin) (Nat.not_le.mpr hend)) hi
  · exact probe_raises hwalk (e := .atHeader 1) (u := (t.marked.setPd (some d)).advanced t.sampleBytes)
      (fun _ q l => probeFrom_cut (s := t.under q l) hin hlen hend hsome) hi
  · exact probe_raises hwalk (e := .inProbe off) (u := t.marked.advanced t.sampleBytes)
      (fun _ q l => probeFrom_pastEnd (s := t.under q l) hin hlen hend hnone h0 htwo) hi

end Sys2Proof.Machine
end

section
/-! PROOF. `READ_FRAME` and `PROBE` come to an end (41_burst R160, 60_exceptions R283, R286, R297). `Ends` says
that an operation ends normally or by a named stop; `Sure` adds that, where a command runs it, none of the model's
refusals is met: once `PREAMBLE` has set a depth it stays, the widths of admissible layouts are read, and a read never
asks for more room than there is. -/

namespace Sys2Proof.Machine

/-! ### While a command runs -/

/-- What holds while a command runs: the parameters are admissible, and no error is latched (41_burst R160). -/
def State.Clear (s : State) : Prop :=
  s.par.Ok ∧ s.seq.ERRK = 0 ∧ s.seq.ERRS = 0 ∧ s.seq.ERRST = 0 ∧ s.lastErr = none

/-- What holds while the payload is read: a depth is set as well (40_bitreader R130). -/
def State.Reading (s : State) : Prop := s.Clear ∧ s.br.DEPTH ≠ none

/-- From a state with `P` the operation meets no refusal, and where it ends normally `Q` holds. -/
structure Sure {α : Type} (P : State → Prop) (x : Op α) (Q : State → Prop) : Prop where
  post : ∀ {s t : State} {a : α}, P s → x s = .ok a t → Q t
  served : ∀ {s t : State} {r : Refusal}, P s → x s ≠ .error (.refused r) t

/-- An operation that reads the payload and goes on reading. -/
def Steady {α : Type} (x : Op α) : Prop := Sure State.Reading x State.Reading

section
variable {P Q R : State → Prop} {α β : Type}

theorem Sure.of_ok {x : Op α} {a : State → α} {f : State → State} (hx : ∀ s, x s = .ok (a s) (f s))
    (h : ∀ s, P s → Q (f s)) : Sure P x Q where
  post {s t b} hs hok := by
    cases (hx s).symm.trans hok
    exact h s hs
  served {s t r} _ herr := nomatch (hx s).symm.trans herr

theorem Sure.update {f : State → State} (h : ∀ s, P s → Q (f s)) : Sure P (update f) Q := .of_ok (update_run f) h

theorem Sure.pure (a : α) : Sure P (pure a : Op α) P := .of_ok (op_pure a) fun _ => id

theorem Sure.raiseErr (e : ErrVal) : Sure P (raiseErr e : Op α) Q := ⟨fun _ => nofun, fun _ => nofun⟩

theorem Sure.bind {x : Op α} {f : α → Op β} (hx : Sure P x Q) (hf : ∀ a, Sure Q (f a) R) : Sure P (x >>= f) R where
  post hs h := by
    obtain ⟨a, u, h1, h2⟩ := op_bind_eq_ok h
    exact (hf a).post (hx.post hs h1) h2
  served hs h := by
    rcases op_bind_eq_error h with h1 | ⟨a, u, h1, h2⟩
    · exact hx.served hs h1
    · exact (hf a).served (hx.post hs h1) h2

theorem Sure.get_bind {f : State → Op β} (hf : ∀ s, P s → Sure P (f s) Q) : Sure P ((get : Op State) >>= f) Q where
  post hs h := (hf _ hs).post hs ((op_bind_ok (op_get _)).symm.trans h)
  served hs h := (hf _ hs).served hs ((op_bind_ok (op_get _)).symm.trans h)

theorem Sure.ite {c : Prop} [Decidable c] {x y : Op α} (hx : Sure P x Q) (hy : Sure P y Q) :
    Sure P (if c then x else y) Q := by
  split_ifs
  · exact hx
  · exact hy

theorem Sure.whenOp (c : Bool) {x : Op Unit} (hx : Sure P x P) : Sure P (whenOp c x) P := .ite hx (.pure ())

theorem Sure.forEach {f : α → Op Unit} (hf : ∀ a, Sure P (f a) P) : ∀ as : List α, Sure P (forEach f as) P
  | [] => .pure ()
  | a :: as => .bind (hf a) fun _ => .forEach hf as

theorem Sure.repeatOp {x : Op Unit} (hx : Sure P x P) : ∀ n : Nat, Sure P (repeatOp x n) P
  | 0 => .pure ()
  | n + 1 => .bind hx fun _ => .repeatOp hx n

/-- An update of any other register. -/
theorem Steady.update {f : State → State} (h : ∀ s : State, s.Reading → (f s).Reading) : Steady (update f) :=
  Sure.update h

end

/-! ### The bit reader -/

theorem needDepth_steady : Steady needDepth where
  post {s t d} hs h := by
    cases hd : s.br.DEPTH with
    | none => exact absurd hd hs.2
    | some d => cases (needDepth_some hd).symm.trans h; exact hs
  served {s t r} hs h := by
    cases hd : s.br.DEPTH with
    | none => exact absurd hd hs.2
    | some d => cases (needDepth_some hd).symm.trans h

/-- A read of at most 32 bits pulls only where there is room (10_state R23). -/
theorem pullIfShort_steady {n : Nat} (hn : n ≤ 32) : Steady (pullIfShort n) where
  post {s t _} hs h := by
    rcases pullIfShort_eq_ok h with ⟨-, rfl⟩ | ⟨-, hp⟩
    · exact hs
    · obtain ⟨d, -, -, -, rfl⟩ := pullwordOp_eq_ok hp
      exact hs
  served {s t r} hs h := by
    cases hd : s.br.DEPTH with
    | none => exact hs.2 hd
    | some d =>
      have hle := d.bits_le
      rcases Nat.lt_or_ge s.br.RESCNT n with hlt | hge
      · rw [pullIfShort_short hlt, pullwordOp_run hd (by omega)] at h
        split_ifs at h
        cases h
      · cases (pullIfShort_enough hge).symm.trans h

theorem getbitsOp_steady {n : Nat} (h1 : 1 ≤ n) (h32 : n ≤ 32) : Steady (getbitsOp n) := by
  rw [getbitsOp, if_pos ⟨h1, h32⟩]
  exact .bind needDepth_steady fun _ => .bind (pullIfShort_steady h32) fun _ => .bind (pullIfShort_steady h32) fun _ =>
    .of_ok (takeBits_run n) fun _ hs => hs

theorem dropBits_steady {n : Nat} (h1 : 1 ≤ n) (h32 : n ≤ 32) : Steady (dropBits n) :=
  .bind (getbitsOp_steady h1 h32) fun _ => .pure ()

/-- `SKIPBITS` reads in parts of 1 to 32 bits (40_bitreader R135). -/
theorem skipbitsOp_steady (k : Nat) : Steady (skipbitsOp k) := by
  refine .bind (.repeatOp (dropBits_steady (by decide) le_rfl) _) fun _ => ?_
  by_cases h0 : k % 32 = 0
  · rw [h0]
    exact .pure ()
  · exact .whenOp _ (dropBits_steady (by omega) (by omega))

theorem getSample_steady : Steady getSample :=
  .bind needDepth_steady fun d => by
    have hge := d.bits_ge
    have hle := d.bits_le
    exact .bind (getbitsOp_steady (by omega) (by omega)) fun _ => .pure _

theorem readLayout_steady {φ : Type} {store : φ × Nat → Nat → Op Unit} (hstore : ∀ e v, Steady (store e v)) :
    ∀ l : Layout φ, (∀ e ∈ l, 1 ≤ e.2 ∧ e.2 ≤ 32) → Steady (readLayout store l)
  | [], _ => .pure ()
  | e :: rest, h =>
    have ⟨h1, h32⟩ := h e List.mem_cons_self
    .bind (getbitsOp_steady h1 h32) fun _ => .bind (hstore e _) fun _ =>
      readLayout_steady hstore rest fun e' he => h e' (List.mem_cons_of_mem e he)

theorem emitEvent_steady (e : Event) : Steady (emitEvent e) := .update fun _ hs => hs
theorem updFr_steady (f : FrameRegs → FrameRegs) : Steady (updFr f) := .update fun _ hs => hs
theorem updTc_steady (f : TcRegs → TcRegs) : Steady (updTc f) := .update fun _ hs => hs
theorem updCh_steady (f : ChanArrays → ChanArrays) : Steady (updCh f) := .update fun _ hs => hs
theorem updPg_steady (f : ProgArrays → ProgArrays) : Steady (updPg f) := .update fun _ hs => hs

theorem updRec_steady (base : Bool) (p : Fin 8) (f : Ac3Rec → Ac3Rec) : Steady (updRec base p f) :=
  .update fun _ hs => by cases base <;> exact hs

/-! ### Regions, audio, meter, completion -/

theorem setKey_steady (k : Sample) : Steady (setKey k) := .update fun _ hs => hs

theorem readKey_steady : Steady readKey :=
  .bind (.get_bind fun _ _ => .whenOp _ (setKey_steady 0)) fun _ => .bind getSample_steady fun k => setKey_steady k

theorem regionStartOp_steady (first : Bool) : Steady (regionStartOp first) :=
  .get_bind fun _ _ => .bind (.whenOp _ readKey_steady) fun _ => .update fun _ hs => hs

theorem padsegOp_steady (size : Nat) (r : Region) : Steady (padsegOp size r) :=
  .bind needDepth_steady fun _ => .get_bind fun _ _ =>
    .ite (skipbitsOp_steady _) (.ite (.raiseErr _) (emitEvent_steady _))

theorem crccheckOp_steady (r : Region) : Steady (crccheckOp r) :=
  .bind getSample_steady fun c => .of_ok (closeRegion_run r c) fun _ hs => hs

theorem skipChannel_steady (c : Fin 8) : Steady (skipChannel c) :=
  .get_bind fun _ _ => .repeatOp (.bind getSample_steady fun _ => .pure ()) _

theorem audiohalfOp_steady (lo hi : Nat) (r : Region) : Steady (audiohalfOp lo hi r) :=
  .bind (regionStartOp_steady false) fun _ => .bind (.forEach skipChannel_steady _) fun _ => crccheckOp_steady r

theorem audioHalves_steady (r0 r1 : Region) : Steady (audioHalves r0 r1) :=
  .get_bind fun _ _ => .bind (audiohalfOp_steady _ _ r0) fun _ => audiohalfOp_steady _ _ r1

theorem meterOp_steady : Steady meterOp := by
  have hvalue : ∀ f : BitVec 10 → ChanArrays → ChanArrays, Steady (getbitsOp 10 >>= fun v => updCh (f v)) := fun _ =>
    .bind (getbitsOp_steady (by decide) (by decide)) fun _ => updCh_steady _
  exact .bind (regionStartOp_steady false) fun _ => .get_bind fun _ _ =>
    .bind (.forEach (fun _ => hvalue _) _) fun _ => .bind (.forEach (fun _ => hvalue _) _) fun _ =>
      .bind (padsegOp_steady _ _) fun _ => crccheckOp_steady .meter

/-- A word of the stream moves the position alone. -/
theorem srcReadWordOp_sure {P : State → Prop} (hP : ∀ s x, P s → P (s.setSrc x)) : Sure P srcReadWordOp P where
  post {s t w} hs h := by
    rw [srcReadWordOp_run] at h
    split_ifs at h <;> cases h
    · exact hP s _ hs
    · exact hs
  served {s t r} _ h := by
    rw [srcReadWordOp_run] at h
    split_ifs at h

theorem skipPadding_steady : Steady skipPadding := by
  refine .bind (srcReadWordOp_sure fun _ _ hs => hs) fun w => ?_
  cases w with
  | some _ => exact .pure ()
  | none => exact .raiseErr _

theorem completeOp_steady : Steady completeOp :=
  .bind needDepth_steady fun _ => .get_bind fun _ _ => .ite (.raiseErr _)
    (.bind (.update fun _ hs => hs) fun _ => .repeatOp skipPadding_steady _)

/-! ### The frame header -/

theorem syncOp_steady : Steady syncOp :=
  .bind getSample_steady fun _ => .bind needDepth_steady fun _ => .bind (.update fun _ hs => hs) fun _ =>
    .bind (regionStartOp_steady true) fun _ => .ite (.pure ()) (.raiseErr _)

/-- A timecode register holds at most 32 bits (10_state R33). -/
theorem regWidth_le (f : TcField) : f.regWidth ≤ 32 := by cases f <;> decide

theorem timecodeDone_steady : Steady timecodeDone :=
  .get_bind fun _ _ => .ite
    (.bind (updTc_steady _) fun _ => .of_ok continuityInvalidateOp_run fun _ hs => hs)
    (.bind (updTc_steady _) fun _ => .of_ok (continuityUpdateOp_run _ _) fun _ hs => hs)

theorem timecodeOp_steady : Steady timecodeOp :=
  .get_bind fun _ hs => .bind
    (readLayout_steady (fun _ _ => updTc_steady _) _ fun e he =>
      ⟨(hs.1.1.tc e he).1, (hs.1.1.tc e he).2.trans (regWidth_le e.1)⟩) fun _ => timecodeDone_steady

theorem pcfgOp_steady (code : BitVec 6) : Steady (pcfgOp code) :=
  .get_bind fun _ _ => .ite (.pure _) (.ite (.raiseErr _) (.raiseErr _))

theorem pcfgField_steady (code : BitVec 6) : Steady (pcfgField code) :=
  .bind (updFr_steady _) fun _ => .bind (pcfgOp_steady code) fun _ => updFr_steady _

theorem frcField_steady (frc : BitVec 4) : Steady (frcField frc) :=
  .bind (updFr_steady _) fun _ => .ite (.raiseErr _) (updFr_steady _)

theorem metadataOp_steady : Steady metadataOp :=
  .bind (getbitsOp_steady (by decide) (by decide)) fun _ => .bind (updFr_steady _) fun _ =>
    .bind (getbitsOp_steady (by decide) (by decide)) fun _ => .bind (updFr_steady _) fun _ =>
      .bind (getbitsOp_steady (by decide) (by decide)) fun c => .bind (pcfgField_steady c) fun _ =>
        .bind (getbitsOp_steady (by decide) (by decide)) fun f => .bind (frcField_steady f) fun _ => timecodeOp_steady

theorem framedistOp_steady : Steady framedistOp :=
  .get_bind fun _ _ =>
    .bind (.forEach (fun _ => .bind (getbitsOp_steady (by decide) (by decide)) fun _ => updCh_steady _) _) fun _ =>
      .bind (.whenOp _ (.bind (getbitsOp_steady (by decide) (by decide)) fun _ => updFr_steady _)) fun _ =>
        .bind (getbitsOp_steady (by decide) (by decide)) fun _ => updFr_steady _

theorem readPmeta_steady (p : Fin 8) : Steady (readPmeta p) :=
  .bind (getbitsOp_steady (by decide) (by decide)) fun c => .bind (updPg_steady _) fun _ =>
    .bind (.of_ok (desccharOp_run p c) fun _ hs => hs) fun _ =>
      .bind (getbitsOp_steady (by decide) (by decide)) fun _ => updPg_steady _

theorem progmetaOp_steady : Steady progmetaOp := .get_bind fun _ _ => .forEach readPmeta_steady _

theorem readCmeta_steady (c : Fin 8) : Steady (readCmeta c) :=
  .bind (getbitsOp_steady (by decide) (by decide)) fun _ => .bind (updCh_steady _) fun _ =>
    .bind (getbitsOp_steady (by decide) (by decide)) fun _ => .bind (updCh_steady _) fun _ =>
      .bind (getbitsOp_steady (by decide) (by decide)) fun _ => .bind (updCh_steady _) fun _ =>
        .bind (getbitsOp_steady (by decide) (by decide)) fun _ => updCh_steady _

theorem chanmetaOp_steady : Steady chanmetaOp := .get_bind fun _ _ => .forEach readCmeta_steady _

/-! ### Subsegments -/

/-- The widths of an admissible AC3 layout (log 10). -/
theorem ac3Layout_width {p : Params} (h : p.Ok) (ext : Bool) : ∀ e ∈ p.ac3Layout ext, 1 ≤ e.2 ∧ e.2 ≤ 32 := by
  cases ext
  · exact h.ac3Base
  · exact h.ac3Ext

theorem readAc3Block_steady (ext base : Bool) (p : Fin 8) : Steady (readAc3Block ext base p) :=
  .get_bind fun _ hs =>
    .bind (readLayout_steady (fun _ _ => updRec_steady base p _) _ (ac3Layout_width hs.1.1 ext)) fun _ =>
      .bind (updRec_steady base p _) fun _ => .of_ok (ac3checkOp_run base p) fun _ hs => hs

theorem addbsiOp_steady (base : Bool) (p : Fin 8) : Steady (addbsiOp base p) :=
  .bind (getbitsOp_steady (by decide) (by decide)) fun _ => .bind (updRec_steady base p _) fun _ =>
    .ite (.bind (getbitsOp_steady (by decide) (by decide)) fun _ => .bind (updRec_steady base p _) fun _ =>
      skipbitsOp_steady _) (updRec_steady base p _)

theorem ac3infoOp_steady (ext base : Bool) : Steady (ac3infoOp ext base) :=
  .get_bind fun _ _ => .bind (.forEach (readAc3Block_steady ext base) _) fun _ => .forEach (addbsiOp_steady base) _

theorem subBlock_steady (base : Bool) (id : BitVec 4) (len : BitVec 12) : Steady (subBlock base id len) :=
  .get_bind fun _ _ => .bind (.ite (ac3infoOp_steady _ base) (skipbitsOp_steady _)) fun _ => .get_bind fun _ _ =>
    .bind (.whenOp _ (.ite (skipbitsOp_steady _) (.whenOp _ (emitEvent_steady _)))) fun _ => updFr_steady _

theorem subsegFrom_steady (base : Bool) : ∀ fuel : Nat, Steady (subsegFrom base fuel)
  | 0 => ⟨fun _ => nofun, fun _ => nofun⟩
  | fuel + 1 => by
    rw [subsegFrom_succ]
    exact .bind (getbitsOp_steady (by decide) (by decide)) fun _ => .ite (.pure ())
      (.bind (getbitsOp_steady (by decide) (by decide)) fun len => .bind (subBlock_steady base _ len) fun _ =>
        subsegFrom_steady base fuel)

/-- The end of a metadata segment (43_subsegments R220, R221). -/
theorem segmentEnd_steady (size : State → Nat) (r : Region) :
    Steady ((get : Op State) >>= fun s => padsegOp (size s) r >>= fun _ => crccheckOp r) :=
  .get_bind fun _ _ => .bind (padsegOp_steady _ r) fun _ => crccheckOp_steady r

theorem subsegloopOp_steady (base : Bool) : Steady (subsegloopOp base) := .get_bind fun _ _ => subsegFrom_steady base _

theorem mdsubsegOp_steady : Steady mdsubsegOp :=
  .bind (subsegloopOp_steady true) fun _ => segmentEnd_steady _ .metadata

theorem extsubsegOp_steady : Steady extsubsegOp :=
  .bind (regionStartOp_steady false) fun _ => .bind (subsegloopOp_steady false) fun _ => segmentEnd_steady _ .extMeta

/-! ### `READ_FRAME` -/

theorem enter_steady (st : SeqState) : Steady (enter st) := .update fun _ hs => hs

theorem extensionStates_steady : Steady extensionStates :=
  .bind (enter_steady _) fun _ => .bind extsubsegOp_steady fun _ => .bind (enter_steady _) fun _ =>
    audioHalves_steady _ _

theorem payloadStates_steady : Steady payloadStates :=
  .bind (enter_steady _) fun _ => .bind syncOp_steady fun _ =>
    .bind (enter_steady _) fun _ => .bind metadataOp_steady fun _ =>
    .bind (enter_steady _) fun _ => .bind framedistOp_steady fun _ =>
    .bind (enter_steady _) fun _ => .bind progmetaOp_steady fun _ =>
    .bind (enter_steady _) fun _ => .bind chanmetaOp_steady fun _ =>
    .bind (enter_steady _) fun _ => .bind mdsubsegOp_steady fun _ =>
    .bind (enter_steady _) fun _ => .bind (audioHalves_steady _ _) fun _ =>
    .get_bind fun _ _ => .bind (.whenOp _ extensionStates_steady) fun _ =>
    .bind (enter_steady _) fun _ => .bind meterOp_steady fun _ =>
    .bind (enter_steady _) fun _ => completeOp_steady

theorem headerWord_sure {P : State → Prop} (hP : ∀ s x, P s → P (s.setSrc x)) (i : BitVec 2) :
    Sure P (headerWord i) P := by
  refine .bind (srcReadWordOp_sure hP) fun w => ?_
  cases w with
  | some w => exact .pure w
  | none => exact .raiseErr _

/-- `PREAMBLE` ends with a depth set, or raises (41_burst R167). -/
theorem preambleOp_sure : Sure State.Clear preambleOp State.Reading := by
  have hword : ∀ i, Sure State.Clear (headerWord i) State.Clear := headerWord_sure fun _ _ hs => hs
  refine .bind (hword 0) fun w1 => ?_
  cases preamble1Depth w1 with
  | none => exact .raiseErr _
  | some d =>
    refine .bind (Q := State.Clear) (.update fun _ hs => hs) fun _ => .bind (hword 1) fun w2 => .get_bind fun s _ => ?_
    cases s.pd with
    | none => exact .raiseErr _
    | some d' => exact .ite (.update fun _ hs => ⟨hs, nofun⟩) (.raiseErr _)

theorem burstinfoOp_steady : Steady burstinfoOp :=
  .bind (headerWord_sure (fun _ _ hs => hs) 2) fun _ => .bind (headerWord_sure (fun _ _ hs => hs) 3) fun _ =>
    .bind (.update fun _ hs => hs) fun _ => .of_ok (burstWord1_run _ _ _ _ _) fun _ hs => hs

theorem acceptBurst_steady : Steady acceptBurst :=
  .get_bind fun _ _ => .ite
    (.bind (.whenOp _ (.bind needDepth_steady fun _ => .get_bind fun _ _ => .ite (.raiseErr _) (.pure ()))) fun _ =>
      .of_ok payloadInitOp_run fun _ hs => hs) (.raiseErr _)

theorem readFrameOp_sure : Sure State.Clear readFrameOp State.Clear := by
  have hbegin : Sure State.Clear (enter .preamble) State.Clear := .update fun _ hs => hs
  have hread : Sure State.Clear readFrameOp State.Reading := by
    rw [readFrameOp_eq]
    exact .bind (.bind hbegin fun _ => .bind preambleOp_sure fun _ => .bind (enter_steady _) fun _ =>
      burstinfoOp_steady)
      fun _ => .bind acceptBurst_steady fun _ => payloadStates_steady
  exact ⟨fun hs h => (hread.post hs h).1, hread.served⟩

/-! ### The end of a command -/

/-- A command is at its end: done without error, or one error of an aborting kind is latched (60_exceptions R283,
R286). -/
def State.Ended (t : State) : Prop :=
  (t.seq = Sequencer.done ∧ t.lastErr = none) ∨
    ∃ e st, t.lastErr = some (e, st) ∧ errKind e ≠ .integrity ∧
      t.seq = ⟨.idle, false, false, kindCode (errKind e), errSub e, st.code⟩

/-- No raised error is an integrity warning (60_exceptions R286, R289). -/
theorem errKind_ne_integrity (e : ErrVal) : errKind e ≠ .integrity := by cases e <;> nofun

theorem latch_ended (t : State) (e : ErrVal) : (t.latch e).Ended :=
  .inr ⟨e, t.seq.ST, rfl, errKind_ne_integrity e, rfl⟩

theorem done_ended (t : State) : ((t.setSeq Sequencer.done).setLastErr none).Ended := .inl ⟨rfl, rfl⟩

/-- A command whose rule meets no stop of the model comes to its end. -/
theorem runCommand_ended {s : State} {body : Op Unit} (hb : s.seq.BUSY = false) (hp : s.par.Ok)
    (hends : Ends unmeasured body) (hsure : Sure State.Clear body State.Clear) :
    ∃ t, runCommand body s = .next t ∧ t.Ended := by
  have hclear : (s.under s.seq.begun none).Clear := ⟨hp, rfl, rfl, rfl, rfl⟩
  cases hr : body (s.under s.seq.begun none) with
  | ok a t =>
    obtain ⟨-, hk, hs, hst, hlast⟩ := hsure.post hclear hr
    refine ⟨_, runCommand_done hb ⟨t.seq, hk, hs, hst, ?_⟩, done_ended t⟩
    rw [hr, ← hlast, under_self]
  | error a t =>
    have hnamed := hends.named hr
    cases a with
    | raised e => exact ⟨_, runCommand_raised hb hr, latch_ended t e⟩
    | refused r => exact absurd hr (hsure.served hclear)
    | faulted f => exact hnamed.elim

/-! ### The end of the probe -/

/-- How the scan ends, `off` bytes from its start (41_burst R166): at the end of its window, at the end of the stream,
at a preamble, at a preamble word that is the last word, or on the step past a candidate that is the last word. -/
inductive State.ProbeEnd (t : State) (off : Nat) : Prop where
  | window (h : t.cfg.PROBE_WINDOW.toNat ≤ off)
  | stream (hin : off < t.cfg.PROBE_WINDOW.toNat) (hend : t.src.MEM.len < t.src.POS + t.sampleBytes)
  | found (d : Depth) (hin : off < t.cfg.PROBE_WINDOW.toNat) (h1 : t.wordAt 0 = d.preamble1)
      (h2 : t.wordAt 1 = d.preamble2) (hlen : t.src.POS + 2 * t.sampleBytes ≤ t.src.MEM.len)
  | cut (d : Depth) (hin : off < t.cfg.PROBE_WINDOW.toNat) (hlen : t.src.POS + t.sampleBytes ≤ t.src.MEM.len)
      (hend : t.src.MEM.len < t.src.POS + 2 * t.sampleBytes) (h : preamble1Depth (t.wordAt 0) = some d)
  | past (hin : off < t.cfg.PROBE_WINDOW.toNat) (hlen : t.src.POS + t.sampleBytes ≤ t.src.MEM.len)
      (hend : t.src.MEM.len < t.src.POS + 2 * t.sampleBytes) (h : preamble1Depth (t.wordAt 0) = none)
      (h0 : t.wordAt 0 ≠ 0) (htwo : t.cfg.STREAMS2 = true)

/-- A scan that does not end at once passes a word or a failed candidate (41_burst R166). -/
theorem probe_turn (s : State) (off : Nat) :
    s.ProbeEnd off ∨ off < s.cfg.PROBE_WINDOW.toNat ∧
      (s.src.POS + s.sampleBytes ≤ s.src.MEM.len ∧ s.wordAt 0 = 0 ∨
        s.src.POS + s.streams * s.sampleBytes ≤ s.src.MEM.len ∧ s.FailedCandidate) := by
  by_cases hin : off < s.cfg.PROBE_WINDOW.toNat
  swap
  · exact .inl (.window (by omega))
  by_cases hlen : s.src.POS + s.sampleBytes ≤ s.src.MEM.len
  swap
  · exact .inl (.stream hin (by omega))
  by_cases h0 : s.wordAt 0 = 0
  · exact .inr ⟨hin, .inl ⟨hlen, h0⟩⟩
  by_cases hlen2 : s.src.POS + 2 * s.sampleBytes ≤ s.src.MEM.len
  · have hstreams : s.streams * s.sampleBytes ≤ 2 * s.sampleBytes := by
      refine Nat.mul_le_mul_right _ ?_
      rw [State.streams]
      split_ifs <;> decide
    cases hw : preamble1Depth (s.wordAt 0) with
    | none => exact .inr ⟨hin, .inr ⟨by omega, h0, .inl hw⟩⟩
    | some d =>
      by_cases h2 : s.wordAt 1 = d.preamble2
      · exact .inl (.found d hin (preamble1Depth_eq_some hw) h2 hlen2)
      · exact .inr ⟨hin, .inr ⟨by omega, h0, .inr ⟨d, hw, hlen2, h2⟩⟩⟩
  · cases hw : preamble1Depth (s.wordAt 0) with
    | some d => exact .inl (.cut d hin hlen (by omega) hw)
    | none =>
      cases htwo : s.cfg.STREAMS2 with
      | true => exact .inl (.past hin hlen (by omega) hw h0 htwo)
      | false =>
        have hone : s.streams = 1 := by rw [State.streams, htwo]; rfl
        rw [hone, Nat.one_mul]
        exact .inr ⟨hin, .inr ⟨hlen, h0, .inl hw⟩⟩

/-- Every scan walks to an end: each turn takes a word of the stream (60_exceptions R297). -/
theorem probeWalk_ends (n : Nat) : ∀ (s : State) (off : Nat), s.src.MEM.len - s.src.POS < n →
    ∃ t off', ProbeWalk s off t off' ∧ t.ProbeEnd off' := by
  induction n with
  | zero => intro s off hn; omega
  | succ n ih =>
    intro s off hn
    have hbytes := sampleBytes_ge s
    rcases probe_turn s off with hend | ⟨hin, ⟨hlen, h0⟩ | ⟨hlen, hfail⟩⟩
    · exact ⟨s, off, .here s off, hend⟩
    · have hrest : s.src.MEM.len - (s.src.POS + s.sampleBytes) < n := by omega
      obtain ⟨t, off', hwalk, hend⟩ := ih (s.marked.advanced s.sampleBytes) (off + s.sampleBytes) hrest
      exact ⟨t, off', .zero _ _ _ _ hin hlen h0 hwalk, hend⟩
    · have hstep : 1 * 3 ≤ s.streams * s.sampleBytes := Nat.mul_le_mul (streams_pos s) hbytes
      have hrest : s.src.MEM.len - (s.src.POS + s.streams * s.sampleBytes) < n := by omega
      obtain ⟨t, off', hwalk, hend⟩ := ih ((s.marked.setPd s.candidateDepth).advanced (s.streams * s.sampleBytes))
        (off + s.streams * s.sampleBytes) hrest
      exact ⟨t, off', .failed _ _ _ _ hin hlen hfail hwalk, hend⟩

/-- `PROBE` comes to its end, by what `probeFinds` and `probeGivesUp` say of each. -/
theorem exec_probe_ended {s : State} (hb : s.seq.BUSY = false) : ∃ t, exec .probe s = .next t ∧ t.Ended := by
  obtain ⟨t, off, hwalk, hend⟩ := probeWalk_ends _ s 0 (Nat.lt_succ_self _)
  obtain ⟨-, -, -, -, hwindow, hstream, hlast⟩ := probeGivesUp s t off hwalk
  have hi : Instr.probe = .probescan ∨ Instr.probe = .probe ∧ s.seq.BUSY = false := .inr ⟨rfl, hb⟩
  cases hend with
  | window h => exact ⟨_, hwindow h _ hi, latch_ended (t.entered .probescan) (.noPreamble off)⟩
  | stream hin hend => exact ⟨_, hstream hin hend _ hi, latch_ended (t.marked.entered .probescan) (.inProbe off)⟩
  | found d hin h1 h2 hlen =>
    exact ⟨_, (probeFinds s t d off hwalk hin h1 h2 hlen).2 hb, done_ended (t.afterProbe d off)⟩
  | cut d hin hlen hend h => exact ⟨_, (hlast hin hlen hend _ hi).1 d h, latch_ended _ (.atHeader 1)⟩
  | past hin hlen hend h h0 htwo =>
    exact ⟨_, (hlast hin hlen hend _ hi).2 h h0 htwo, latch_ended _ (.inProbe off)⟩

/-! ### Obligations -/

/-- Settles O21: neither command meets a stop of the model. -/
theorem commandsEnd : Obligations.CommandsEnd := by
  rintro i s (rfl | rfl) hb hp
  · exact runCommand_ended (body := readFrameOp) hb hp readFrameOp_ends.unmeasured readFrameOp_sure
  · exact exec_probe_ended hb

end Sys2Proof.Machine
end

section
/-! PROOF. Reading the payload (40_bitreader, 41_burst R164). `Goes d x s a t`: where the stream holds the words up to
the position of `t`, the operation `x` takes `s` to `t` and hands back `a`, whatever `ST`, `STATUS` and the returned
error are. Since every part of a sequence only moves the position forward, the bound on the last position gives every
other, and `Goes` composes without it. -/

namespace Sys2Proof.Machine

/-- A state in which the payload can be read: a depth is set, nothing stands above the residual bits, and the
parameters are admissible. -/
def State.Legal (s : State) (d : Depth) : Prop :=
  (s.br.DEPTH = some d ∧ s.br.RES.toNat < 2 ^ s.br.RESCNT) ∧ s.par.Ok

/-- From `s` one gets to `t` reading forward. -/
structure Onward (d : Depth) (s t : State) : Prop where
  mem : t.src.MEM = s.src.MEM
  pos : s.src.POS ≤ t.src.POS
  par : t.par = s.par
  legal : t.Legal d
  frame : s.fr.Bounded → t.fr.Bounded

/-- The operation goes from `s` to `t`, handing back `a`, if the words are in the stream. -/
structure Goes {α : Type} (d : Depth) (x : Op α) (s : State) (a : α) (t : State) : Prop extends Onward d s t where
  run : t.src.POS ≤ s.src.MEM.len → ∀ q l, x (s.under q l) = .ok a (t.under q l)

section
variable {d : Depth} {s t u : State} {α β : Type}

theorem State.Legal.ready (h : s.Legal d) : s.Ready d := ⟨h.1.1, h.1.2⟩

theorem State.Ready.legal (h : s.Ready d) (hp : s.par.Ok) : s.Legal d := ⟨⟨h.depth, h.res⟩, hp⟩

theorem State.Ready.under (h : s.Ready d) (q : Sequencer) (l : Option (ErrVal × SeqState)) : (s.under q l).Ready d :=
  ⟨h.depth, h.res⟩

theorem Onward.refl (hs : s.Legal d) : Onward d s s := ⟨rfl, le_rfl, rfl, hs, id⟩

theorem Onward.trans (h1 : Onward d s t) (h2 : Onward d t u) : Onward d s u :=
  ⟨h2.mem.trans h1.mem, h1.pos.trans h2.pos, h2.par.trans h1.par, h2.legal, fun hf => h2.frame (h1.frame hf)⟩

/-- A position before one that lies in the stream. -/
theorem Onward.inside (h1 : Onward d s t) (h2 : Onward d t u) (hlen : u.src.POS ≤ s.src.MEM.len) :
    t.src.POS ≤ s.src.MEM.len ∧ u.src.POS ≤ t.src.MEM.len := ⟨h2.pos.trans hlen, h1.mem ▸ hlen⟩

/-- By itself, as an instruction runs it. -/
theorem Goes.ok {x : Op α} {a : α} (h : Goes d x s a t) (hseq : t.seq = s.seq) (hlast : t.lastErr = s.lastErr)
    (hlen : t.src.POS ≤ s.src.MEM.len) : x s = .ok a t := by
  have hrun := h.run hlen s.seq s.lastErr
  rwa [under_self, ← hseq, ← hlast, under_self] at hrun

/-! ### How operations compose -/

theorem Goes.bind {x : Op α} {f : α → Op β} {a : α} {b : β} (hx : Goes d x s a t)
    (hf : Onward d s t → Goes d (f a) t b u) : Goes d (x >>= f) s b u where
  toOnward := hx.toOnward.trans (hf hx.toOnward).toOnward
  run hlen q l := by
    have hrest := hf hx.toOnward
    obtain ⟨h1, h2⟩ := hx.toOnward.inside hrest.toOnward hlen
    rw [op_bind_ok (hx.run h1 q l), hrest.run h2 q l]

/-- The state is read first; what follows does not depend on `ST`, `STATUS` and the returned error. -/
theorem Goes.get_bind {f : State → Op β} {b : β} (hf : ∀ q l, f (s.under q l) = f s) (h : Goes d (f s) s b t) :
    Goes d ((get : Op State) >>= f) s b t where
  toOnward := h.toOnward
  run hlen q l := by rw [op_bind_ok (op_get _), hf, h.run hlen q l]

/-- An operation that writes registers and reads nothing. -/
theorem Goes.write {x : Op α} {a : α} (hrun : ∀ q l, x (s.under q l) = .ok a (t.under q l)) (hsrc : t.src = s.src)
    (hpar : t.par = s.par) (hlegal : t.Legal d) (hframe : s.fr.Bounded → t.fr.Bounded) : Goes d x s a t where
  mem := by rw [hsrc]
  pos := by rw [hsrc]
  par := hpar
  legal := hlegal
  frame := hframe
  run _ := hrun

theorem Goes.pure (hs : s.Legal d) (a : α) : Goes d (pure a : Op α) s a s :=
  .write (fun _ _ => rfl) rfl rfl hs id

/-- Registers that are neither of the bit reader nor of the frame header. -/
theorem Goes.store {x : Op Unit} (hs : s.Legal d) (hrun : ∀ q l, x (s.under q l) = .ok () (t.under q l))
    (hsrc : t.src = s.src) (hbr : t.br = s.br) (hpar : t.par = s.par) (hfr : t.fr = s.fr) : Goes d x s () t := by
  refine .write hrun hsrc hpar ?_ fun hf => hfr ▸ hf
  rw [State.Legal, hbr, hpar]
  exact hs

theorem updCh_goes (hs : s.Legal d) (f : ChanArrays → ChanArrays) : Goes d (updCh f) s () (s.setCh (f s.ch)) :=
  .store hs (fun _ _ => rfl) rfl rfl rfl rfl

theorem updPg_goes (hs : s.Legal d) (f : ProgArrays → ProgArrays) : Goes d (updPg f) s () (s.setPg (f s.pg)) :=
  .store hs (fun _ _ => rfl) rfl rfl rfl rfl

/-- A loop of operations. -/
theorem Goes.forEach {f : α → Op Unit} {g : State → α → State}
    (hf : ∀ (t : State) (a : α), t.Legal d → Goes d (f a) t () (g t a)) :
    ∀ (as : List α) {s : State}, s.Legal d → Goes d (forEach f as) s () (as.foldl g s)
  | [], _, hs => .pure hs ()
  | a :: as, s, hs => (hf s a hs).bind fun h => .forEach hf as h.legal

theorem forEach_append (f : α → Op Unit) (as bs : List α) :
    Machine.forEach f (as ++ bs) = Machine.forEach f as >>= fun _ => Machine.forEach f bs := by
  induction as with
  | nil => rfl
  | cons a as ih => rw [List.cons_append, Machine.forEach, Machine.forEach, ih, bind_assoc]

theorem idxRange_succ (c : Fin 8) : idxRange 0 (c.val + 1) = idxRange 0 c.val ++ [c] := by
  revert c
  decide

/-- A loop over the first `n` indices, the states between its turns being given. -/
theorem Goes.forEach_idxRange {f : Fin 8 → Op Unit} (g : Nat → State) (h0 : (g 0).Legal d) {n : Nat} (hn : n ≤ 8)
    (hf : ∀ c : Fin 8, (g c.val).Legal d → Goes d (f c) (g c.val) () (g (c.val + 1))) :
    Goes d (Machine.forEach f (idxRange 0 n)) (g 0) () (g n) := by
  induction n with
  | zero => exact .pure h0 ()
  | succ n ih =>
    have hsplit : idxRange 0 (n + 1) = idxRange 0 n ++ [⟨n, hn⟩] := idxRange_succ ⟨n, hn⟩
    rw [hsplit, forEach_append]
    exact (ih (by omega)).bind fun h => (hf ⟨n, hn⟩ h.legal).bind fun h' => .pure h'.legal ()

/-! ### Reading -/

theorem State.consume_legal (hs : s.Legal d) (n : Nat) : (s.consume d n).Legal d :=
  (State.consume_ready hs.ready n).legal hs.2

theorem consume_onward (hs : s.Legal d) (n : Nat) : Onward d s (s.consume d n) :=
  ⟨rfl, Nat.le_add_right _ _, rfl, State.consume_legal hs n, id⟩

theorem getbits_goes (hs : s.Legal d) {n : Nat} (hn : 1 ≤ n ∧ n ≤ 32) :
    Goes d (getbitsOp n) s (BitVec.ofNat n (s.field d 0 n)) (s.consume d n) where
  toOnward := consume_onward hs n
  run hlen q l := getbitsOp_ok (s := s.under q l) (hs.ready.under q l) hn hlen

/-- A field read in a state that stands `k` bits after `s`, but for registers that reading does not look at. -/
theorem getbits_at {k n v : Nat} (hs : u.Legal d) (hn : 1 ≤ n ∧ n ≤ 32)
    (hv : u.field d 0 n = (s.consume d k).field d 0 n) (ht : u.consume d n = t) (hk : s.field d k n = v) :
    Goes d (getbitsOp n) u (BitVec.ofNat n v) t := by
  rw [← ht, ← hk, ← Nat.add_zero k, ← s.field_consume, ← hv]
  exact getbits_goes hs hn

theorem skipbits_goes (hs : s.Legal d) (k : Nat) : Goes d (skipbitsOp k) s () (s.consume d k) where
  toOnward := consume_onward hs k
  run hlen q l := skipbitsOp_ok (s := s.under q l) (hs.ready.under q l) hlen

theorem getSample_goes (hs : s.Legal d) :
    Goes d getSample s (BitVec.ofNat 24 (s.field d 0 d.bits)) (s.consume d d.bits) where
  toOnward := consume_onward hs d.bits
  run hlen q l := getSample_ok (s := s.under q l) (hs.ready.under q l) hlen

/-! ### Regions -/

theorem under_ite (c : Prop) [Decidable c] (s t : State) (q : Sequencer) (l : Option (ErrVal × SeqState)) :
    (if c then s else t).under q l = if c then s.under q l else t.under q l :=
  apply_ite (fun u : State => u.under q l) c s t

theorem afterRegionStart_under (s : State) (d : Depth) (first : Bool) (q : Sequencer)
    (l : Option (ErrVal × SeqState)) :
    (s.under q l).afterRegionStart d first = (s.afterRegionStart d first).under q l := by
  rw [State.afterRegionStart, State.afterRegionStart, under_ite]
  rfl

/-- A region start writes the bit reader and moves the position (40_bitreader R136). -/
theorem afterRegionStart_frame (s : State) (d : Depth) (first : Bool) :
    (s.afterRegionStart d first).fr = s.fr ∧ (s.afterRegionStart d first).ch = s.ch ∧
      (s.afterRegionStart d first).par = s.par ∧ (s.afterRegionStart d first).src.MEM = s.src.MEM ∧
      s.src.POS ≤ (s.afterRegionStart d first).src.POS := by
  rw [State.afterRegionStart]
  split_ifs
  · exact ⟨rfl, rfl, rfl, rfl, Nat.le_add_right _ _⟩
  · exact ⟨rfl, rfl, rfl, rfl, le_rfl⟩

theorem regionStart_goes (hs : s.Legal d) (first : Bool) :
    Goes d (regionStartOp first) s () (s.afterRegionStart d first) := by
  obtain ⟨hfr, -, hpar, hmem, hpos⟩ := afterRegionStart_frame s d first
  refine ⟨⟨hmem, hpos, hpar, (State.afterRegionStart_ready hs.ready first).legal (hpar ▸ hs.2), fun hf => hfr ▸ hf⟩,
    fun hlen q l => ?_⟩
  rw [← afterRegionStart_under]
  refine regionStartOp_ok (hs.ready.under q l) first ?_
  rw [afterRegionStart_under]
  exact hlen

theorem afterPad_under (s : State) (d : Depth) (size : Nat) (r : Region) (q : Sequencer)
    (l : Option (ErrVal × SeqState)) : (s.under q l).afterPad d size r = (s.afterPad d size r).under q l := by
  rw [State.afterPad, State.afterPad, under_ite]
  rfl

theorem afterPad_frame (s : State) (d : Depth) (size : Nat) (r : Region) :
    (s.afterPad d size r).fr = s.fr ∧ (s.afterPad d size r).par = s.par ∧
      (s.afterPad d size r).src.MEM = s.src.MEM ∧ s.src.POS ≤ (s.afterPad d size r).src.POS := by
  rw [State.afterPad]
  split_ifs
  · exact ⟨rfl, rfl, rfl, Nat.le_add_right _ _⟩
  · exact ⟨rfl, rfl, rfl, le_rfl⟩

theorem padseg_goes (hs : s.Legal d) {size : Nat} (r : Region) (hpad : s.PadOk d size) :
    Goes d (padsegOp size r) s () (s.afterPad d size r) := by
  obtain ⟨hfr, hpar, hmem, hpos⟩ := afterPad_frame s d size r
  refine ⟨⟨hmem, hpos, hpar, (State.afterPad_ready hs.ready size r).legal (hpar ▸ hs.2), fun hf => hfr ▸ hf⟩,
    fun hlen q l => ?_⟩
  rw [← afterPad_under]
  refine padsegOp_ok (s := s.under q l) (hs.ready.under q l) size r hpad ?_
  rw [afterPad_under]
  exact hlen

theorem crccheck_goes (hs : s.Legal d) (r : Region) : Goes d (crccheckOp r) s () (s.afterCrc d r) where
  mem := rfl
  pos := Nat.le_add_right _ _
  par := rfl
  legal := (State.afterCrc_ready hs.ready r).legal hs.2
  frame := id
  run hlen q l := crccheckOp_ok (s := s.under q l) (hs.ready.under q l) r hlen

/-- The end of a segment: its padding and its codeword (40_bitreader R137, R138). -/
theorem segmentEnd_goes (hs : s.Legal d) {size : Nat} (r : Region) (hpad : s.PadOk d size) :
    Goes d (padsegOp size r >>= fun _ => crccheckOp r) s () (s.afterSegment d size r) :=
  (padseg_goes hs r hpad).bind fun h => crccheck_goes h.legal r

theorem afterSegment_fr (s : State) (d : Depth) (size : Nat) (r : Region) : (s.afterSegment d size r).fr = s.fr :=
  (afterPad_frame s d size r).1

end

end Sys2Proof.Machine
end

section
/-! PROOF. The states of the frame header, from `SYNC` to `CHANMETA` (42_frame_header), as functions of the bits at the
reading position. -/

namespace Sys2Proof.Machine

section
variable {d : Depth} {s t u : State}

/-! ### SYNC -/

theorem needDepth_goes (hs : s.Legal d) : Goes d needDepth s d s :=
  .write (fun q l => needDepth_some (s := s.under q l) hs.ready.depth) rfl rfl hs id

/-- The last bit of a field. -/
theorem field_getLsbD_zero (s : State) (d : Depth) {w : Nat} (hw : 1 ≤ w) :
    (BitVec.ofNat 24 (s.field d 0 w)).getLsbD 0 = s.bitAt d (w - 1) := by
  have hpos : 0 < w := hw
  rw [BitVec.getLsbD_ofNat, State.field, bitsValue_testBit]
  simp [hpos]

/-- `SYNC` on the sync word (42_frame_header R191). -/
theorem sync_goes (hs : s.Legal d) (hsync : syncMatches d (BitVec.ofNat 24 (s.field d 0 d.bits)) = true) :
    Goes d syncOp s () (s.afterSync d) := by
  have hge := d.bits_ge
  refine (getSample_goes hs).bind fun h => (needDepth_goes h.legal).bind fun _ => ?_
  rw [field_getLsbD_zero s d (by omega), if_pos hsync]
  have hflag : Goes d (updBr fun b => { b with KEYP := s.bitAt d (d.bits - 1) }) (s.consume d d.bits) ()
      ((s.consume d d.bits).setBr { (s.consume d d.bits).br with KEYP := s.bitAt d (d.bits - 1) }) :=
    .write (fun _ _ => rfl) rfl rfl h.legal id
  exact hflag.bind fun h => (regionStart_goes h.legal true).bind fun h => .pure h.legal ()

/-! ### METADATA -/

theorem layoutFields_under {φ : Type} (s : State) (d : Depth) (off : Nat) (lay : Layout φ) (q : Sequencer)
    (l : Option (ErrVal × SeqState)) : (s.under q l).layoutFields d off lay = s.layoutFields d off lay := by
  induction lay generalizing off with
  | nil => rfl
  | cons e rest ih => exact congrArg (List.cons _) (ih _)

theorem afterTimecode_under (s : State) (fields : List ((TcField × Nat) × Nat)) (q : Sequencer)
    (l : Option (ErrVal × SeqState)) : (s.under q l).afterTimecode fields = (s.afterTimecode fields).under q l := by
  dsimp only [State.afterTimecode]
  rw [under_ite]
  rfl

theorem afterTimecode_frame (s : State) (fields : List ((TcField × Nat) × Nat)) :
    (s.afterTimecode fields).br = s.br ∧ (s.afterTimecode fields).src = s.src ∧
      (s.afterTimecode fields).par = s.par ∧ (s.afterTimecode fields).fr = s.fr := by
  dsimp only [State.afterTimecode]
  split_ifs <;> exact ⟨rfl, rfl, rfl, rfl⟩

/-- The widths of an admissible timecode layout (log 11). -/
theorem tcLayout_width {p : Params} (h : p.Ok) : ∀ e ∈ p.tcLayout, 1 ≤ e.2 ∧ e.2 ≤ 32 :=
  fun e he => ⟨(h.tc e he).1, (h.tc e he).2.trans (regWidth_le e.1)⟩

theorem readTimecode_goes (hs : s.Legal d) :
    Goes d (readLayout (fun e v => updTc fun t => t.store e v) s.par.tcLayout) s ()
      ((s.consume d s.par.tcLayout.bits).setTc (s.tc.storeAll (s.layoutFields d 0 s.par.tcLayout))) where
  toOnward :=
    have h := consume_onward hs s.par.tcLayout.bits
    ⟨h.mem, h.pos, h.par, h.legal, h.frame⟩
  run hlen q l := by
    rw [readTimecode_ok (s := s.under q l) (hs.ready.under q l) s.par.tcLayout (tcLayout_width hs.2) hlen,
      layoutFields_under]
    rfl

theorem timecodeDone_goes (hs : s.Legal d) (fields : List ((TcField × Nat) × Nat)) :
    Goes d timecodeDone (s.setTc (s.tc.storeAll fields)) () (s.afterTimecode fields) := by
  obtain ⟨hbr, hsrc, hpar, hfr⟩ := afterTimecode_frame s fields
  refine .store hs (fun q l => ?_) hsrc hbr hpar hfr
  rw [← afterTimecode_under]
  exact timecodeDone_run fields (s.under q l)

/-- `TIMECODE` (42_frame_header R195). -/
theorem timecode_goes (hs : s.Legal d) : Goes d timecodeOp s () (s.afterTimecodeBlock d) :=
  .get_bind (fun _ _ => rfl) ((readTimecode_goes hs).bind fun _ => timecodeDone_goes (State.consume_legal hs _) _)

/-- The codes that set `LFR` (42_frame_header R193). -/
theorem lfrOf_eq (frc : BitVec 4) : lfrOf frc = decide (1 ≤ frc.toNat ∧ frc.toNat ≤ 5) := by
  revert frc
  decide

theorem frcIsReserved_eq (frc : BitVec 4) : frcIsReserved frc = decide (¬(1 ≤ frc.toNat ∧ frc.toNat ≤ 8)) := by
  revert frc
  decide

theorem pcfgField_goes {code : BitVec 6} (hs : s.Legal d) (hcode : code.toNat ≤ 23) :
    Goes d (pcfgField code) s () ((s.setFr { s.fr with PCFGC := code }).configured code) :=
  .write (fun q l => pcfgField_ok (show code ≤ 23#6 from hcode) (s.under q l)) rfl rfl hs fun _ =>
    ⟨toNat_ofNat_fin9 _, toNat_ofNat_fin9 _⟩

theorem frcField_goes {frc : BitVec 4} (hs : s.Legal d) (h1 : 1 ≤ frc.toNat) (h8 : frc.toNat ≤ 8) :
    Goes d (frcField frc) s () (s.setFr
      { s.fr with FRC := frc, LFR := decide (1 ≤ frc.toNat ∧ frc.toNat ≤ 5) }) := by
  refine .write (fun q l => ?_) rfl rfl hs id
  have hok : ¬frcIsReserved frc = true := by simp [frcIsReserved_eq, h1, h8]
  rw [frcField_run, if_neg hok, lfrOf_eq]
  rfl

theorem setMdid_goes (hs : s.Legal d) (v : BitVec 4) : Goes d (setMdid v) s () (s.setFr { s.fr with MDID := v }) :=
  .write (fun _ _ => rfl) rfl rfl hs id

theorem setMdsize_goes (hs : s.Legal d) (v : BitVec 10) :
    Goes d (setMdsize v) s () (s.setFr { s.fr with MDSIZE := v }) := .write (fun _ _ => rfl) rfl rfl hs id

/-- `METADATA` with legal codes (42_frame_header R192). -/
theorem metadata_goes (hs : s.Legal d) (hh : s.HeaderAhead d) : Goes d metadataOp s () (s.afterMetadata d) := by
  refine (getbits_goes hs (by decide)).bind fun h => (setMdid_goes h.legal _).bind fun h => ?_
  refine (getbits_at h.legal (by decide) rfl
    (congrArg (State.setFr · _) (s.consume_consume d 4 10)) rfl).bind fun h => ?_
  refine (setMdsize_goes h.legal _).bind fun h => ?_
  refine (getbits_at h.legal (by decide) rfl
    (congrArg (State.setFr · _) (s.consume_consume d 14 6)) rfl).bind fun h => ?_
  refine (pcfgField_goes h.legal hh.pcfg).bind fun h => ?_
  refine (getbits_at h.legal (by decide) rfl
    (congrArg (State.setFr · _) (s.consume_consume d 20 4)) rfl).bind fun h => ?_
  refine (frcField_goes h.legal hh.frcLow hh.frcHigh).bind fun h => ?_
  exact timecode_goes h.legal

/-- The counts a table gives (45_progconfig R271). -/
theorem afterMetadata_bounded (s : State) (d : Depth) : (s.afterMetadata d).fr.Bounded := by
  rw [State.afterMetadata, State.afterTimecodeBlock, (afterTimecode_frame _ _).2.2.2]
  exact ⟨toNat_ofNat_fin9 _, toNat_ofNat_fin9 _⟩

/-! ### Arrays filled from the stream -/

/-- One more element of an array filled in order. -/
theorem ofFn_fill_succ {α : Type} (c : Fin 8) (f : Fin 8 → α) (old : Vector α 8) :
    (Vector.ofFn fun i : Fin 8 => if i.val < c.val + 1 then f i else old[i])
      = vset (Vector.ofFn fun i : Fin 8 => if i.val < c.val then f i else old[i]) c (f c) := by
  refine Vector.ext fun i hi => ?_
  rw [vset, Vector.getElem_set, Vector.getElem_ofFn, Vector.getElem_ofFn]
  rcases Nat.lt_trichotomy i c.val with hlt | rfl | hgt
  · rw [if_pos (show i < c.val + 1 by omega), if_neg (by omega), if_pos (show i < c.val from hlt)]
  · rw [if_pos (Nat.lt_succ_self _), if_pos rfl]
  · rw [if_neg (show ¬i < c.val + 1 by omega), if_neg (by omega), if_neg (show ¬i < c.val by omega)]

theorem ofFn_fill_zero {α : Type} (f : Fin 8 → α) (old : Vector α 8) :
    (Vector.ofFn fun i : Fin 8 => if i.val < 0 then f i else old[i]) = old := by
  refine Vector.ext fun i hi => ?_
  rw [Vector.getElem_ofFn, if_neg (Nat.not_lt_zero i)]
  rfl

theorem fillArray_succ {w : Nat} (c : Fin 8) (f : Nat → BitVec w) (old : Vector (BitVec w) 8) :
    fillArray (c.val + 1) f old = vset (fillArray c.val f old) c (f c.val) := ofFn_fill_succ c (fun i => f i.val) old

theorem fillArray_zero {w : Nat} (f : Nat → BitVec w) (old : Vector (BitVec w) 8) : fillArray 0 f old = old :=
  ofFn_fill_zero (fun i => f i.val) old

/-! ### FRAMEDIST -/

/-- A field of one channel, read in a state that stands `k` bits after `s` but for the channel arrays. -/
theorem channelField_goes {k n : Nat} {ch : ChanArrays} (h : ((s.consume d k).setCh ch).Legal d) (hn : 1 ≤ n ∧ n ≤ 32) :
    Goes d (getbitsOp n) ((s.consume d k).setCh ch) (BitVec.ofNat n (s.field d k n)) ((s.consume d (k + n)).setCh ch) :=
  getbits_at h hn rfl (congrArg (State.setCh · ch) (s.consume_consume d k n)) rfl

/-- `s` with the sizes of the first `n` channels read (42_frame_header R198). -/
def State.sizesRead (s : State) (d : Depth) (n : Nat) : State :=
  (s.consume d (10 * n)).setCh
    { s.ch with CHSZ := fillArray n (fun c => BitVec.ofNat 10 (s.field d (10 * c) 10)) s.ch.CHSZ }

theorem sizesRead_zero (hs : s.Legal d) : s.sizesRead d 0 = s := by
  rw [State.sizesRead, fillArray_zero, Nat.mul_zero, State.consume_zero hs.ready]
  rfl

theorem sizesRead_succ (s : State) (d : Depth) (c : Fin 8) :
    s.sizesRead d (c.val + 1) = (s.consume d (10 * c.val + 10)).setCh { (s.sizesRead d c.val).ch with
      CHSZ := vset (s.sizesRead d c.val).ch.CHSZ c (BitVec.ofNat 10 (s.field d (10 * c.val) 10)) } := by
  rw [State.sizesRead, fillArray_succ]
  rfl

theorem readChsz_goes (c : Fin 8) (h : (s.sizesRead d c.val).Legal d) :
    Goes d (readChsz c) (s.sizesRead d c.val) () (s.sizesRead d (c.val + 1)) := by
  rw [sizesRead_succ]
  exact (channelField_goes h (n := 10) (by decide)).bind fun h => updCh_goes h.legal _

theorem sizesRead_goes (hs : s.Legal d) {n : Nat} (hn : n ≤ 8) :
    Goes d (forEach readChsz (idxRange 0 n)) s () (s.sizesRead d n) := by
  have hloop := Goes.forEach_idxRange (d := d) (f := readChsz) (s.sizesRead d) ((sizesRead_zero hs).symm ▸ hs) hn
    fun c h => readChsz_goes c h
  rwa [sizesRead_zero hs] at hloop

theorem setExtsz_goes (hs : s.Legal d) (v : BitVec 8) : Goes d (setExtsz v) s () (s.setFr { s.fr with EXTSZ := v }) :=
  .write (fun _ _ => rfl) rfl rfl hs id

theorem setMetsz_goes (hs : s.Legal d) (v : BitVec 8) : Goes d (setMetsz v) s () (s.setFr { s.fr with METSZ := v }) :=
  .write (fun _ _ => rfl) rfl rfl hs id

/-- `FRAMEDIST` (42_frame_header R198). -/
theorem framedist_goes (hs : s.Legal d) (hf : s.fr.Bounded) : Goes d framedistOp s () (s.afterFramedist d) := by
  refine .get_bind (fun _ _ => rfl) ((sizesRead_goes hs hf.1).bind fun h => ?_)
  rw [State.afterFramedist, FrameRegs.distBits]
  cases s.fr.LFR with
  | false =>
    refine (Goes.pure h.legal ()).bind fun h => ?_
    exact (channelField_goes h.legal (n := 8) (by decide)).bind fun h => setMetsz_goes h.legal _
  | true =>
    have hext : Goes d readExtsz _ () _ :=
      (channelField_goes h.legal (n := 8) (by decide)).bind fun h => setExtsz_goes h.legal _
    refine hext.bind fun h => ?_
    refine (getbits_at (s := s) (k := 10 * s.fr.NCH.toNat + 8) h.legal (by decide) rfl
      (congrArg (fun t : State => (t.setCh _).setFr _) (s.consume_consume d _ 8)) rfl).bind fun h => ?_
    exact setMetsz_goes h.legal _

/-! ### PROGMETA -/

/-- `s` with the metadata of the first `n` programs read (42_frame_header R199, R200). -/
def State.programsRead (s : State) (d : Depth) (n : Nat) : State :=
  (((s.consume d (10 * n)).setPg
    { DCHAR := fillArray n (s.charAt d) s.pg.DCHAR
      BWID := fillArray n (fun p => BitVec.ofNat 2 (s.field d (10 * p + 8) 2)) s.pg.BWID }).setDesc
    (Vector.ofFn fun p => if p.val < n then (s.desc[p]).after s.par.descMax (s.charAt d p) else s.desc[p])).setEv
    (s.ev ++ (idxRange 0 n).flatMap fun p => (s.desc[p]).published p (s.charAt d p))

theorem programsRead_zero (hs : s.Legal d) : s.programsRead d 0 = s := by
  have hdesc := ofFn_fill_zero (fun p => (s.desc[p]).after s.par.descMax (s.charAt d p)) s.desc
  have hev : s.ev ++ (idxRange 0 0).flatMap (fun p => (s.desc[p]).published p (s.charAt d p)) = s.ev :=
    List.append_nil _
  rw [State.programsRead, fillArray_zero, fillArray_zero, hdesc, hev, Nat.mul_zero, State.consume_zero hs.ready]
  rfl

/-- A program's text is as it was until its character comes. -/
theorem programsRead_desc (s : State) (d : Depth) (p : Fin 8) : (s.programsRead d p.val).desc[p] = s.desc[p] := by
  have hget : (s.programsRead d p.val).desc[p]
      = if p.val < p.val then (s.desc[p]).after s.par.descMax (s.charAt d p) else s.desc[p] :=
    Vector.getElem_ofFn p.isLt
  rw [hget, if_neg (Nat.lt_irrefl _)]

theorem programsRead_succ (s : State) (d : Depth) (p : Fin 8) :
    s.programsRead d (p.val + 1) =
      (((s.consume d (10 * p.val + 10)).setPg
        { DCHAR := vset (s.programsRead d p.val).pg.DCHAR p (s.charAt d p)
          BWID := vset (s.programsRead d p.val).pg.BWID p (BitVec.ofNat 2 (s.field d (10 * p.val + 8) 2)) }).setDesc
        (vset (s.programsRead d p.val).desc p ((s.desc[p]).after s.par.descMax (s.charAt d p)))).setEv
        ((s.programsRead d p.val).ev ++ (s.desc[p]).published p (s.charAt d p)) := by
  have hdesc := ofFn_fill_succ p (fun p => (s.desc[p]).after s.par.descMax (s.charAt d p)) s.desc
  have hev : s.ev ++ (idxRange 0 (p.val + 1)).flatMap (fun p => (s.desc[p]).published p (s.charAt d p))
      = s.ev ++ (idxRange 0 p.val).flatMap (fun p => (s.desc[p]).published p (s.charAt d p))
        ++ (s.desc[p]).published p (s.charAt d p) := by
    rw [idxRange_succ, List.flatMap_append, List.flatMap_singleton, List.append_assoc]
  rw [State.programsRead, fillArray_succ, fillArray_succ, hdesc, hev]
  rfl

theorem descchar_goes (hs : s.Legal d) (p : Fin 8) (ch : BitVec 8) :
    Goes d (desccharOp p ch) s () (s.afterChar p ch) :=
  .store hs (fun q l => desccharOp_run p ch (s.under q l)) rfl rfl rfl rfl

theorem readPmeta_goes (p : Fin 8) (h : (s.programsRead d p.val).Legal d) :
    Goes d (readPmeta p) (s.programsRead d p.val) () (s.programsRead d (p.val + 1)) := by
  rw [programsRead_succ]
  refine (getbits_at (s := s) (k := 10 * p.val) h (by decide) rfl
    (congrArg (fun t : State => ((t.setPg _).setDesc _).setEv _) (s.consume_consume d _ 8)) rfl).bind fun h => ?_
  refine (updPg_goes h.legal _).bind fun h => (descchar_goes h.legal p _).bind fun h => ?_
  refine (getbits_at (s := s) (k := 10 * p.val + 8) h.legal (by decide) rfl
    (congrArg (fun t : State => ((t.setPg _).setDesc _).setEv _) (s.consume_consume d _ 2)) rfl).bind fun h => ?_
  rw [← programsRead_desc s d p]
  exact updPg_goes h.legal _

/-- `PROGMETA` (42_frame_header R199, R200). -/
theorem progmeta_goes (hs : s.Legal d) (hf : s.fr.Bounded) : Goes d progmetaOp s () (s.afterProgmeta d) := by
  have hloop := Goes.forEach_idxRange (d := d) (f := readPmeta) (s.programsRead d)
    ((programsRead_zero hs).symm ▸ hs) hf.2 fun p h => readPmeta_goes p h
  rw [programsRead_zero hs] at hloop
  exact .get_bind (fun _ _ => rfl) hloop

/-! ### CHANMETA -/

/-- `s` with the metadata of the first `n` channels read (42_frame_header R201). -/
def State.channelsRead (s : State) (d : Depth) (n : Nat) : State :=
  (s.consume d (25 * n)).setCh
    { s.ch with
      REVID := fillArray n (fun c => BitVec.ofNat 4 (s.field d (25 * c) 4)) s.ch.REVID
      BITPOOL := fillArray n (fun c => BitVec.ofNat 1 (s.field d (25 * c + 4) 1)) s.ch.BITPOOL
      BGAIN := fillArray n (fun c => BitVec.ofNat 10 (s.field d (25 * c + 5) 10)) s.ch.BGAIN
      EGAIN := fillArray n (fun c => BitVec.ofNat 10 (s.field d (25 * c + 15) 10)) s.ch.EGAIN }

theorem channelsRead_zero (hs : s.Legal d) : s.channelsRead d 0 = s := by
  rw [State.channelsRead, fillArray_zero, fillArray_zero, fillArray_zero, fillArray_zero, Nat.mul_zero,
    State.consume_zero hs.ready]
  rfl

theorem channelsRead_succ (s : State) (d : Depth) (c : Fin 8) :
    s.channelsRead d (c.val + 1) = (s.consume d (25 * c.val + 25)).setCh { (s.channelsRead d c.val).ch with
      REVID := vset (s.channelsRead d c.val).ch.REVID c (BitVec.ofNat 4 (s.field d (25 * c.val) 4))
      BITPOOL := vset (s.channelsRead d c.val).ch.BITPOOL c (BitVec.ofNat 1 (s.field d (25 * c.val + 4) 1))
      BGAIN := vset (s.channelsRead d c.val).ch.BGAIN c (BitVec.ofNat 10 (s.field d (25 * c.val + 5) 10))
      EGAIN := vset (s.channelsRead d c.val).ch.EGAIN c (BitVec.ofNat 10 (s.field d (25 * c.val + 15) 10)) } := by
  rw [State.channelsRead, fillArray_succ, fillArray_succ, fillArray_succ, fillArray_succ]
  rfl

theorem readCmeta_goes (c : Fin 8) (h : (s.channelsRead d c.val).Legal d) :
    Goes d (readCmeta c) (s.channelsRead d c.val) () (s.channelsRead d (c.val + 1)) := by
  rw [channelsRead_succ]
  refine (channelField_goes h (n := 4) (by decide)).bind fun h => (updCh_goes h.legal _).bind fun h => ?_
  refine (channelField_goes h.legal (n := 1) (by decide)).bind fun h => (updCh_goes h.legal _).bind fun h => ?_
  refine (channelField_goes h.legal (n := 10) (by decide)).bind fun h => (updCh_goes h.legal _).bind fun h => ?_
  exact (channelField_goes h.legal (n := 10) (by decide)).bind fun h => updCh_goes h.legal _

/-- `CHANMETA` (42_frame_header R201). -/
theorem chanmeta_goes (hs : s.Legal d) (hf : s.fr.Bounded) : Goes d chanmetaOp s () (s.afterChanmeta d) := by
  have hloop := Goes.forEach_idxRange (d := d) (f := readCmeta) (s.channelsRead d)
    ((channelsRead_zero hs).symm ▸ hs) hf.1 fun c h => readCmeta_goes c h
  rw [channelsRead_zero hs] at hloop
  exact .get_bind (fun _ _ => rfl) hloop

end

end Sys2Proof.Machine
end

section
/-! PROOF. The metadata subsegments (43_subsegments): AC3 records, additional information, sub-blocks, and the loop
along a `SubWalk`, whose fuel lasts since every turn takes bits of the stream (log 24). -/

namespace Sys2Proof.Machine

section
variable {d : Depth} {s t u : State} {base : Bool} {p : Fin 8}

/-! ### Records -/

/-- The record of one program updated (43_subsegments R224). -/
def State.withRec (s : State) (base : Bool) (p : Fin 8) (f : Ac3Rec → Ac3Rec) : State :=
  s.setRecs base (vset (s.recs base) p (f ((s.recs base)[p])))

theorem setRecs_recs_same (s : State) (base : Bool) (x : Vector Ac3Rec 8) : (s.setRecs base x).recs base = x := by
  rw [setRecs_recs, if_pos rfl]

theorem withRec_recs (s : State) (base : Bool) (p : Fin 8) (f : Ac3Rec → Ac3Rec) :
    ((s.withRec base p f).recs base)[p] = f ((s.recs base)[p]) := by
  rw [State.withRec, setRecs_recs_same]
  exact Vector.getElem_set_self p.isLt

theorem withRec_withRec (s : State) (base : Bool) (p : Fin 8) (f g : Ac3Rec → Ac3Rec) :
    (s.withRec base p f).withRec base p g = s.withRec base p fun r => g (f r) := by
  have hset : vset ((s.withRec base p f).recs base) p (g (f ((s.recs base)[p])))
      = vset (s.recs base) p (g (f ((s.recs base)[p]))) := by
    rw [State.withRec, setRecs_recs_same]
    exact Vector.set_set _ p.isLt
  rw [State.withRec, withRec_recs, hset]
  cases base <;> rfl

/-- Reading does not look at the records. -/
theorem withRec_consume (s : State) (base : Bool) (p : Fin 8) (f : Ac3Rec → Ac3Rec) (n : Nat) :
    (s.withRec base p f).consume d n = (s.consume d n).withRec base p f := by cases base <;> rfl

theorem withRec_field (s : State) (base : Bool) (p : Fin 8) (f : Ac3Rec → Ac3Rec) (off w : Nat) :
    (s.withRec base p f).field d off w = s.field d off w := by cases base <;> rfl

theorem updRec_goes (hs : s.Legal d) (base : Bool) (p : Fin 8) (f : Ac3Rec → Ac3Rec) :
    Goes d (updRec base p f) s () (s.withRec base p f) := by
  cases base <;> exact .store hs (fun _ _ => rfl) rfl rfl rfl rfl

theorem emitEvent_goes (hs : s.Legal d) (e : Event) : Goes d (emitEvent e) s () (s.setEv (s.ev ++ [e])) :=
  .store hs (fun _ _ => rfl) rfl rfl rfl rfl

/-! ### AC3 blocks -/

/-- The reserved data-rate codes (43_subsegments R228). -/
theorem ac3check_goes (hs : s.Legal d) (base : Bool) (p : Fin 8) :
    Goes d (ac3checkOp base p) s () (s.setEv (s.ev ++
      if 19 ≤ (((s.recs base)[p]).get .datarate).toNat ∧ (((s.recs base)[p]).get .datarate).toNat ≤ 30
        then [.ac3Reserved p .datarate (((s.recs base)[p]).get .datarate).toNat] else [])) :=
  .store hs (fun q l => by cases base <;> exact ac3checkOp_run _ p (s.under q l)) rfl rfl rfl rfl

/-- The end of a block, once its fields are in a record `r` (43_subsegments R224). -/
theorem ac3BlockDone_goes (hs : s.Legal d) (ext base : Bool) (p : Fin 8) (r : Ac3Rec) :
    Goes d (ac3BlockDone ext base p) (s.withRec base p fun _ => r) ()
      (s.afterRecord base p { r with EXT := ext, VALID := true }) := by
  have hl : (s.withRec base p fun _ => r).Legal d := (updRec_goes hs base p fun _ => r).legal
  refine (updRec_goes hl base p fun r => { r with EXT := ext, VALID := true }).bind fun h => ?_
  have hcheck := ac3check_goes h.legal base p
  rw [withRec_withRec, withRec_recs] at hcheck
  rw [withRec_withRec]
  cases base <;> exact hcheck

theorem readAc3Fields_goes (hs : s.Legal d) (ext base : Bool) (p : Fin 8) :
    Goes d (readLayout (fun e v => updRec base p fun r => r.store e v) (s.par.ac3Layout ext)) s ()
      ((s.consume d (s.par.ac3Layout ext).bits).withRec base p fun r =>
        r.storeAll (s.layoutFields d 0 (s.par.ac3Layout ext))) where
  toOnward := (consume_onward hs _).trans (updRec_goes (State.consume_legal hs _) base p _).toOnward
  run hlen q l := by
    have hpos : (s.consume d (s.par.ac3Layout ext).bits).src.POS ≤ s.src.MEM.len := by cases base <;> exact hlen
    have hread := readAc3Fields_ok (s := s.under q l) (hs.ready.under q l) base p (s.par.ac3Layout ext)
      (ac3Layout_width hs.2 ext) hpos
    rw [hread, layoutFields_under]
    cases base <;> rfl

/-- One program's AC3 block (43_subsegments R224, R228). -/
theorem readAc3Block_goes (hs : s.Legal d) (ext base : Bool) (p : Fin 8) :
    Goes d (readAc3Block ext base p) s () (s.afterAc3Block d ext base p) := by
  refine .get_bind (fun _ _ => rfl) ((readAc3Fields_goes hs ext base p).bind fun _ => ?_)
  have hdone := ac3BlockDone_goes (State.consume_legal hs (s.par.ac3Layout ext).bits) ext base p
    (((s.recs base)[p]).storeAll (s.layoutFields d 0 (s.par.ac3Layout ext)))
  cases base <;> exact hdone

/-! ### Additional information -/

theorem ofNat_field_toNat (s : State) (d : Depth) (off w : Nat) :
    (BitVec.ofNat w (s.field d off w)).toNat = s.field d off w := by
  rw [BitVec.toNat_ofNat, Nat.mod_eq_of_lt (s.field_lt d off w)]

/-- A flag of one bit. -/
theorem field_one_getLsbD (s : State) (d : Depth) (off : Nat) :
    (BitVec.ofNat 1 (s.field d off 1)).getLsbD 0 = s.bitAt d off := by
  rw [State.field_one]
  cases s.bitAt d off <;> rfl

/-- `ADDBSI` (43_subsegments R225). -/
theorem addbsi_goes (hs : s.Legal d) (base : Bool) (p : Fin 8) :
    Goes d (addbsiOp base p) s () (s.afterAddbsi d base p) := by
  refine (getbits_goes hs (by decide)).bind fun h => ?_
  rw [field_one_getLsbD]
  rw [State.afterAddbsi]
  cases s.bitAt d 0 with
  | false =>
    rw [if_neg Bool.false_ne_true, if_neg Bool.false_ne_true]
    refine (updRec_goes h.legal base p fun r => { r with ADDBSIE := false }).bind fun h => ?_
    have habsent := updRec_goes h.legal base p fun r => { r with ADDBSIE := false, ADDBSIL := 0 }
    rw [withRec_withRec] at habsent
    exact habsent
  | true =>
    rw [if_pos rfl, if_pos rfl]
    refine (updRec_goes h.legal base p fun r => { r with ADDBSIE := true }).bind fun h => ?_
    have hlen := getbits_at (s := s) (k := 1) h.legal (n := 6) (by decide) (withRec_field _ base p _ 0 6)
      ((withRec_consume _ base p _ 6).trans (congrArg (State.withRec · base p _) (s.consume_consume d 1 6))) rfl
    refine hlen.bind (f := fun len => addbsiPresent base p len) fun h => (updRec_goes h.legal base p _).bind fun h => ?_
    have hskip := skipbits_goes h.legal (8 * (BitVec.ofNat 6 (s.field d 1 6)).toNat)
    rw [withRec_withRec, withRec_consume, State.consume_consume] at hskip
    rw [withRec_withRec]
    rw [ofNat_field_toNat] at hskip ⊢
    exact hskip

/-- `AC3INFO` (43_subsegments R224). -/
theorem ac3info_goes (hs : s.Legal d) (ext base : Bool) :
    Goes d (ac3infoOp ext base) s () (s.afterAc3info d ext base) :=
  .get_bind (fun _ _ => rfl) ((Goes.forEach (fun _ p ht => readAc3Block_goes ht ext base p) _ hs).bind fun h =>
    Goes.forEach (fun _ p ht => addbsi_goes ht base p) _ h.legal)

/-! ### Sub-blocks -/

theorem isInterpreted_iff (base : Bool) (id : BitVec 4) :
    isInterpreted base id = true ↔ id = 1 ∨ (id = 2 ∧ base = true) := by
  rw [isInterpreted, Bool.or_eq_true, Bool.and_eq_true, beq_iff_eq, beq_iff_eq]
  exact Iff.rfl

theorem countSubseg_goes (hs : s.Legal d) (base : Bool) : Goes d (countSubseg base) s () (s.counted base) := by
  rw [State.counted, ← satSucc_eq, ← satSucc_eq]
  cases base <;> exact .write (fun _ _ => rfl) rfl rfl hs id

/-- The reconciliation with the declared length, if the policy asks for it (43_subsegments R222). -/
theorem reconcile_goes (hs : s.Legal d) (id : BitVec 4) (len : BitVec 12) (used : Nat) :
    Goes d (whenOp s.par.subsegLenReconcile (reconcileLength id len used)) s () (s.afterReconcile d id len used) := by
  rw [State.afterReconcile]
  cases s.par.subsegLenReconcile with
  | false => exact .pure hs ()
  | true =>
    rw [whenOp_true, reconcileLength, if_neg (show ¬(true = false) by decide)]
    by_cases hless : used < len.toNat
    · rw [if_pos hless, if_pos hless]
      exact skipbits_goes hs _
    · rw [if_neg hless, if_neg hless]
      by_cases hmore : len.toNat < used
      · rw [if_pos hmore, decide_eq_true hmore]
        exact emitEvent_goes hs _
      · rw [if_neg hmore, decide_eq_false hmore]
        exact .pure hs ()

/-- A sub-block (43_subsegments R222). -/
theorem subBlock_goes (hs : s.Legal d) (base : Bool) (id : BitVec 4) (len : BitVec 12) :
    Goes d (subBlock base id len) s () (s.afterSubBlock d base id len) := by
  refine .get_bind (fun _ _ => rfl) ?_
  by_cases hid : id = 1 ∨ (id = 2 ∧ base = true)
  · have hint := (isInterpreted_iff base id).mpr hid
    rw [State.afterSubBlock, if_pos hid, subBody, if_pos hint, hint]
    refine (ac3info_goes hs _ base).bind fun h => .get_bind (fun _ _ => rfl) ?_
    rw [Bool.true_and, ← h.par]
    exact (reconcile_goes h.legal id len _).bind fun h => countSubseg_goes h.legal base
  · have hskip : isInterpreted base id = false := by rw [← Bool.not_eq_true, isInterpreted_iff]; exact hid
    rw [State.afterSubBlock, if_neg hid, subBody, hskip, if_neg Bool.false_ne_true]
    refine (skipbits_goes hs _).bind fun h => .get_bind (fun _ _ => rfl) ?_
    exact (Goes.pure h.legal ()).bind fun h => countSubseg_goes h.legal base

/-! ### The loop -/

/-- The header of a sub-block: its id and its length (30_encoding R104). -/
theorem subHeader_goes (hs : s.Legal d) :
    Goes d (getbitsOp 12) (s.consume d 4) (BitVec.ofNat 12 (s.field d 4 12)) (s.consume d 16) :=
  getbits_at (State.consume_legal hs 4) (by decide) rfl (s.consume_consume d 4 12) rfl

/-- The loop goes along a walk, if its fuel covers the bits left (43_subsegments R222; log 24). -/
theorem SubWalk.loop (h : SubWalk d base s t) (hs : s.Legal d) :
    Onward d s t ∧ (t.src.POS ≤ s.src.MEM.len → ∀ fuel, s.bitsLeft < fuel → ∀ q l,
      subsegFrom base fuel (s.under q l) = .ok () (t.under q l)) := by
  induction h with
  | done s h0 =>
    have hid := getbits_goes hs (n := 4) (by decide)
    refine ⟨hid.toOnward, fun hlen fuel hfuel q l => ?_⟩
    obtain ⟨fuel, rfl⟩ : ∃ k, fuel = k + 1 := ⟨fuel - 1, by omega⟩
    rw [h0] at hid
    exact subsegFrom_done (hid.run hlen q l)
  | block s t h0 _ ih =>
    have hid := getbits_goes hs (n := 4) (by decide)
    have hnum := subHeader_goes hs
    have hblock := subBlock_goes hnum.legal base (BitVec.ofNat 4 (s.field d 0 4)) (BitVec.ofNat 12 (s.field d 4 12))
    obtain ⟨hrest, hloop⟩ := ih hblock.legal
    have hheader := hid.toOnward.trans hnum.toOnward
    have hturn := hheader.trans hblock.toOnward
    refine ⟨hturn.trans hrest, fun hlen fuel hfuel q l => ?_⟩
    obtain ⟨fuel, rfl⟩ : ∃ k, fuel = k + 1 := ⟨fuel - 1, by omega⟩
    have hne : BitVec.ofNat 4 (s.field d 0 4) ≠ 0#4 := fun hc => h0 (by rw [← ofNat_field_toNat, hc]; rfl)
    obtain ⟨hpos, hend⟩ := hturn.inside hrest hlen
    obtain ⟨hpos16, hposb⟩ := hheader.inside hblock.toOnward hpos
    obtain ⟨hpos4, hpos12⟩ := hid.toOnward.inside hnum.toOnward hpos16
    have h4 := hid.run hpos4 q l
    have h12 := hnum.run hpos12 q l
    have hb := hblock.run hposb q l
    have hleft : ((s.consume d 4).under q l).bitsLeft + 4 ≤ s.bitsLeft :=
      getbitsOp_spends (s := s.under q l) h4
    have hleft' := ((subBlock_ends base _ _).le hb).trans ((getbitsOp_ends 12).le h12)
    rw [subsegFrom_block h4 hne h12, op_bind_ok hb]
    exact hloop hend fuel (lt_of_le_of_lt hleft' (by omega)) q l

/-- `SUBSEGLOOP` (43_subsegments R222). -/
theorem subsegloop_goes (h : SubWalk d base s t) (hs : s.Legal d) : Goes d (subsegloopOp base) s () t where
  toOnward := (h.loop hs).1
  run hlen q l := by
    rw [subsegloopOp_run]
    exact (h.loop hs).2 hlen _ (bitsLeft_lt_subsegFuel s) q l

/-- `MDSUBSEG` (43_subsegments R220). -/
theorem mdsubseg_goes (hs : s.Legal d) (h : SubWalk d true s t) (hpad : t.PadOk d t.fr.MDSIZE.toNat) :
    Goes d mdsubsegOp s () (t.afterSegment d t.fr.MDSIZE.toNat .metadata) :=
  (subsegloop_goes h hs).bind fun h => .get_bind (fun _ _ => rfl) (segmentEnd_goes h.legal .metadata hpad)

/-- `EXTSUBSEG` (43_subsegments R221). -/
theorem extsubseg_goes (hs : s.Legal d) (h : SubWalk d false (s.afterRegionStart d false) t)
    (hpad : t.PadOk d t.fr.EXTSZ.toNat) :
    Goes d extsubsegOp s () (t.afterSegment d t.fr.EXTSZ.toNat .extMeta) :=
  (regionStart_goes hs false).bind fun hr => (subsegloop_goes h hr.legal).bind fun h =>
    .get_bind (fun _ _ => rfl) (segmentEnd_goes h.legal .extMeta hpad)

end

end Sys2Proof.Machine
end

section
/-! PROOF. Audio, meter and completion (44_audio_meter), and the whole frame: the sequencer states one after another,
each taken by the lemma of its operation. -/

namespace Sys2Proof.Machine

section
variable {d : Depth} {s t u : State}

/-! ### Audio -/

theorem dropSample_goes (hs : s.Legal d) : Goes d dropSample s () (s.consume d d.bits) :=
  (getSample_goes hs).bind fun h => .pure h.legal ()

/-- `k` samples (44_audio_meter R250). -/
theorem dropSamples_goes (hs : s.Legal d) (k : Nat) :
    Goes d (repeatOp dropSample k) s () (s.consume d (k * d.bits)) := by
  induction k generalizing s with
  | zero =>
    rw [Nat.zero_mul, State.consume_zero hs.ready]
    exact .pure hs ()
  | succ k ih =>
    rw [Nat.succ_mul, Nat.add_comm (k * d.bits), ← State.consume_consume]
    exact (dropSample_goes hs).bind fun h => ih h.legal

/-- The samples of some channels (44_audio_meter R250). -/
theorem skipChannels_goes (hs : s.Legal d) (cs : List (Fin 8)) :
    Goes d (forEach skipChannel cs) s () (s.consume d ((cs.map fun c => (s.ch.CHSZ[c]).toNat).sum * d.bits)) := by
  induction cs generalizing s with
  | nil =>
    rw [List.map_nil, List.sum_nil, Nat.zero_mul, State.consume_zero hs.ready]
    exact .pure hs ()
  | cons c cs ih =>
    have hchannel : Goes d (skipChannel c) s () (s.consume d ((s.ch.CHSZ[c]).toNat * d.bits)) :=
      .get_bind (fun _ _ => rfl) (dropSamples_goes hs _)
    rw [List.map_cons, List.sum_cons, Nat.add_mul, ← State.consume_consume]
    exact hchannel.bind fun h => ih h.legal

theorem afterRegionStart_sizeSum (s : State) (d : Depth) (first : Bool) (lo hi : Nat) :
    (s.afterRegionStart d first).sizeSum lo hi = s.sizeSum lo hi := by
  rw [State.sizeSum, State.sizeSum, (afterRegionStart_frame s d first).2.1]

/-- `AUDIOHALF` (44_audio_meter R250). -/
theorem audiohalf_goes (hs : s.Legal d) (lo hi : Nat) (r : Region) :
    Goes d (audiohalfOp lo hi r) s () (s.afterHalf d lo hi r) := by
  rw [State.afterHalf, ← afterRegionStart_sizeSum s d false]
  exact (regionStart_goes hs false).bind fun h => (skipChannels_goes h.legal (idxRange lo hi)).bind fun h =>
    crccheck_goes h.legal r

/-- Both halves of an audio segment (44_audio_meter R251, R252). -/
theorem audioHalves_goes (hs : s.Legal d) (r0 r1 : Region) : Goes d (audioHalves r0 r1) s () (s.afterHalves d r0 r1) :=
  .get_bind (fun _ _ => rfl) ((audiohalf_goes hs _ _ r0).bind fun h => audiohalf_goes h.legal _ _ r1)

theorem afterHalf_fr (s : State) (d : Depth) (lo hi : Nat) (r : Region) : (s.afterHalf d lo hi r).fr = s.fr :=
  (afterRegionStart_frame s d false).1

theorem afterHalves_fr (s : State) (d : Depth) (r0 r1 : Region) : (s.afterHalves d r0 r1).fr = s.fr :=
  (afterHalf_fr _ _ _ _ _).trans (afterHalf_fr _ _ _ _ _)

/-! ### Meter -/

/-- `s` with the peaks of the first `n` channels read (44_audio_meter R253). -/
def State.peaksRead (s : State) (d : Depth) (n : Nat) : State :=
  (s.consume d (10 * n)).setCh
    { s.ch with PEAK := fillArray n (fun c => BitVec.ofNat 10 (s.field d (10 * c) 10)) s.ch.PEAK }

/-- `s` with all peaks and the RMS values of the first `n` channels read (44_audio_meter R253). -/
def State.rmsRead (s : State) (d : Depth) (n : Nat) : State :=
  (s.consume d (10 * s.fr.NCH.toNat + 10 * n)).setCh
    { (s.peaksRead d s.fr.NCH.toNat).ch with
      RMS := fillArray n (fun c => BitVec.ofNat 10 (s.field d (10 * s.fr.NCH.toNat + 10 * c) 10)) s.ch.RMS }

theorem peaksRead_zero (hs : s.Legal d) : s.peaksRead d 0 = s := by
  rw [State.peaksRead, fillArray_zero, Nat.mul_zero, State.consume_zero hs.ready]
  rfl

theorem peaksRead_succ (s : State) (d : Depth) (c : Fin 8) :
    s.peaksRead d (c.val + 1) = (s.consume d (10 * c.val + 10)).setCh { (s.peaksRead d c.val).ch with
      PEAK := vset (s.peaksRead d c.val).ch.PEAK c (BitVec.ofNat 10 (s.field d (10 * c.val) 10)) } := by
  rw [State.peaksRead, fillArray_succ]
  rfl

theorem rmsRead_zero (s : State) (d : Depth) : s.rmsRead d 0 = s.peaksRead d s.fr.NCH.toNat := by
  rw [State.rmsRead, fillArray_zero]
  rfl

theorem rmsRead_succ (s : State) (d : Depth) (c : Fin 8) :
    s.rmsRead d (c.val + 1) = (s.consume d (10 * s.fr.NCH.toNat + 10 * c.val + 10)).setCh { (s.rmsRead d c.val).ch with
      RMS := vset (s.rmsRead d c.val).ch.RMS c
        (BitVec.ofNat 10 (s.field d (10 * s.fr.NCH.toNat + 10 * c.val) 10)) } := by
  rw [State.rmsRead, fillArray_succ]
  rfl

theorem rmsRead_all (s : State) (d : Depth) : s.rmsRead d s.fr.NCH.toNat = s.afterMeters d := by
  rw [State.rmsRead, State.afterMeters, ← Nat.add_mul]
  rfl

theorem readPeak_goes (c : Fin 8) (h : (s.peaksRead d c.val).Legal d) :
    Goes d (readPeak c) (s.peaksRead d c.val) () (s.peaksRead d (c.val + 1)) := by
  rw [peaksRead_succ]
  exact (channelField_goes h (n := 10) (by decide)).bind fun h => updCh_goes h.legal _

theorem readRms_goes (c : Fin 8) (h : (s.rmsRead d c.val).Legal d) :
    Goes d (readRms c) (s.rmsRead d c.val) () (s.rmsRead d (c.val + 1)) := by
  rw [rmsRead_succ]
  exact (channelField_goes h (n := 10) (by decide)).bind fun h => updCh_goes h.legal _

theorem peaks_goes (hs : s.Legal d) (hf : s.fr.Bounded) :
    Goes d (forEach readPeak (idxRange 0 s.fr.NCH.toNat)) s () (s.peaksRead d s.fr.NCH.toNat) := by
  have hloop := Goes.forEach_idxRange (d := d) (f := readPeak) (s.peaksRead d) ((peaksRead_zero hs).symm ▸ hs) hf.1
    fun c h => readPeak_goes c h
  rwa [peaksRead_zero hs] at hloop

theorem rms_goes (hf : s.fr.Bounded) (h : (s.peaksRead d s.fr.NCH.toNat).Legal d) :
    Goes d (forEach readRms (idxRange 0 s.fr.NCH.toNat)) (s.peaksRead d s.fr.NCH.toNat) () (s.afterMeters d) := by
  have hloop := Goes.forEach_idxRange (d := d) (f := readRms) (s.rmsRead d) ((rmsRead_zero s d).symm ▸ h) hf.1
    fun c h => readRms_goes c h
  rwa [rmsRead_zero, rmsRead_all] at hloop

/-- `METER` (44_audio_meter R253). -/
theorem meter_goes (hs : s.Legal d) (hf : s.fr.Bounded)
    (hpad : ((s.afterRegionStart d false).afterMeters d).PadOk d s.fr.METSZ.toNat) :
    Goes d meterOp s () (s.afterMeter d) := by
  have hfr := (afterRegionStart_frame s d false).1
  refine (regionStart_goes hs false).bind fun h => .get_bind (fun _ _ => rfl) ?_
  refine (peaks_goes h.legal (hfr ▸ hf)).bind fun hp => (rms_goes (hfr ▸ hf) hp.legal).bind fun h => ?_
  rw [hfr]
  exact segmentEnd_goes h.legal .meter hpad

/-! ### Completion -/

theorem skipPadding_goes (hs : s.Legal d) : Goes d skipPadding s () (s.advanced s.sampleBytes) where
  mem := rfl
  pos := Nat.le_add_right _ _
  par := rfl
  legal := hs
  frame := id
  run hlen q l := by
    have hword : srcReadWordOp (s.under q l) = .ok (some (s.wordAt 0)) ((s.advanced s.sampleBytes).under q l) := by
      rw [srcReadWordOp_wordAt]
      exact if_pos hlen
    rw [skipPadding, op_bind_ok hword]
    rfl

/-- `n` words of padding (44_audio_meter R258). -/
theorem skipPaddings_goes (hs : s.Legal d) (n : Nat) :
    Goes d (repeatOp skipPadding n) s () (s.advanced (n * s.sampleBytes)) := by
  induction n generalizing s with
  | zero =>
    rw [advanced_zero]
    exact .pure hs ()
  | succ n ih =>
    rw [Nat.succ_mul, Nat.add_comm (n * s.sampleBytes), ← advanced_advanced]
    exact (skipPadding_goes hs).bind fun h => ih h.legal

/-- `COMPLETE`, the remainder not being negative (44_audio_meter R258). -/
theorem complete_goes (hs : s.Legal d) (hrest : s.br.BYTECNT ≤ s.expectedBytes d) :
    Goes d completeOp s () (s.afterComplete d) := by
  refine (needDepth_goes hs).bind fun _ => .get_bind (fun _ _ => rfl) ?_
  rw [if_neg (Nat.not_lt.mpr hrest)]
  have hclear : Goes d (updBr fun b => { b with RES := 0, RESCNT := 0 }) s ()
      (s.setBr { s.br with RES := 0, RESCNT := 0 }) :=
    .write (fun _ _ => rfl) rfl rfl ⟨⟨hs.1.1, Nat.one_pos⟩, hs.2⟩ id
  exact hclear.bind fun h => skipPaddings_goes h.legal _

/-! ### Sequencer states one after another -/

/-- The error fields of `STATUS` are the same (10_state R30). -/
def Sequencer.SameError (q q' : Sequencer) : Prop := q'.ERRK = q.ERRK ∧ q'.ERRS = q.ERRS ∧ q'.ERRST = q.ERRST

/-- The operation goes from `s` to `t`, if the words are in the stream, but for the sequencer states it enters. -/
structure Passes (d : Depth) (x : Op Unit) (s t : State) : Prop extends Onward d s t where
  run : t.src.POS ≤ s.src.MEM.len → ∀ q l, ∃ q', q.SameError q' ∧ x (s.under q l) = .ok () (t.under q' l)

theorem Goes.passes {x : Op Unit} (h : Goes d x s () t) : Passes d x s t where
  toOnward := h.toOnward
  run hlen q l := ⟨q, ⟨rfl, rfl, rfl⟩, h.run hlen q l⟩

theorem enter_passes (hs : s.Legal d) (st : SeqState) : Passes d (enter st) s s where
  toOnward := .refl hs
  run _ q l := ⟨q.inState st, ⟨rfl, rfl, rfl⟩, enter_under st s q l⟩

theorem Passes.bind {x : Op Unit} {f : Unit → Op Unit} (hx : Passes d x s t)
    (hf : Onward d s t → Passes d (f ()) t u) : Passes d (x >>= f) s u where
  toOnward := hx.toOnward.trans (hf hx.toOnward).toOnward
  run hlen q l := by
    have hrest := hf hx.toOnward
    obtain ⟨h1, h2⟩ := hx.toOnward.inside hrest.toOnward hlen
    obtain ⟨q1, ⟨hk1, hs1, ht1⟩, hrun1⟩ := hx.run h1 q l
    obtain ⟨q2, ⟨hk2, hs2, ht2⟩, hrun2⟩ := hrest.run h2 q1 l
    exact ⟨q2, ⟨hk2.trans hk1, hs2.trans hs1, ht2.trans ht1⟩, by rw [op_bind_ok hrun1, hrun2]⟩

theorem Passes.get_bind {f : State → Op Unit} (hf : ∀ q l, f (s.under q l) = f s) (h : Passes d (f s) s t) :
    Passes d ((get : Op State) >>= f) s t where
  toOnward := h.toOnward
  run hlen q l := by
    rw [op_bind_ok (op_get _), hf]
    exact h.run hlen q l

/-- A sequencer state and those after it (41_burst R164). -/
theorem Passes.state {body rest : Op Unit} {st : SeqState} (hs : s.Legal d) (hbody : Goes d body s () t)
    (hrest : Onward d s t → Passes d rest t u) : Passes d (enter st >>= fun _ => body >>= fun _ => rest) s u :=
  (enter_passes hs st).bind fun _ => hbody.passes.bind hrest

/-- The last of some sequencer states. -/
theorem Passes.lastState {body : Op Unit} {st : SeqState} (hs : s.Legal d) (hbody : Goes d body s () t) :
    Passes d (enter st >>= fun _ => body) s t :=
  (enter_passes hs st).bind fun _ => hbody.passes

/-! ### The frame -/

/-- The state after the audio segment of a frame, `m` being the end of its metadata loop (41_burst R164). -/
def State.afterAudio (m : State) (d : Depth) : State :=
  (m.afterSegment d m.fr.MDSIZE.toNat .metadata).afterHalves d .audio0 .audio1

theorem afterAudio_fr (m : State) (d : Depth) : (m.afterAudio d).fr = m.fr :=
  (afterHalves_fr _ _ _ _).trans (afterSegment_fr _ _ _ _)

/-- The extension states, if the frame rate is low (41_burst R164). -/
theorem extension_passes {m x : State} (hs : (m.afterAudio d).Legal d)
    (hext : m.fr.LFR = true → SubWalk d false (m.atExtension d) x ∧ x.PadOk d x.fr.EXTSZ.toNat) :
    Passes d (whenOp (m.afterAudio d).fr.LFR extensionStates) (m.afterAudio d) (m.atMeter x d) := by
  rw [afterAudio_fr, State.atMeter]
  cases hlow : m.fr.LFR with
  | false => exact (Goes.pure hs ()).passes
  | true =>
    obtain ⟨hwalk, hpad⟩ := hext hlow
    exact .state hs (extsubseg_goes hs hwalk hpad) fun h => .lastState h.legal (audioHalves_goes h.legal _ _)

/-- The states of `READ_FRAME` that read the payload, `p` being the state where they start (41_burst R164). -/
theorem payloadStates_passes {p m x : State} (hp : p.Legal d)
    (hsync : syncMatches d (BitVec.ofNat 24 (p.field d 0 d.bits)) = true) (hheader : (p.afterSync d).HeaderAhead d)
    (hwalk : SubWalk d true (((((p.afterSync d).afterMetadata d).afterFramedist d).afterProgmeta d).afterChanmeta d) m)
    (hmeta : m.PadOk d m.fr.MDSIZE.toNat)
    (hext : m.fr.LFR = true → SubWalk d false (m.atExtension d) x ∧ x.PadOk d x.fr.EXTSZ.toNat)
    (hmeter : (((m.atMeter x d).afterRegionStart d false).afterMeters d).PadOk d (m.atMeter x d).fr.METSZ.toNat)
    (hrest : ((m.atMeter x d).afterMeter d).br.BYTECNT ≤ ((m.atMeter x d).afterMeter d).expectedBytes d) :
    Passes d payloadStates p (((m.atMeter x d).afterMeter d).afterComplete d) := by
  refine .state hp (sync_goes hp hsync) fun h => .state h.legal (metadata_goes h.legal hheader) fun h => ?_
  have hdist := afterMetadata_bounded (p.afterSync d) d
  refine .state h.legal (framedist_goes h.legal hdist) fun h => ?_
  have hprog := h.frame hdist
  refine .state h.legal (progmeta_goes h.legal hprog) fun h => ?_
  have hchan := h.frame hprog
  refine .state h.legal (chanmeta_goes h.legal hchan) fun h => ?_
  have hloop := h.frame hchan
  refine .state h.legal (mdsubseg_goes h.legal hwalk hmeta) fun h => ?_
  have haudio := h.frame hloop
  refine .state h.legal (audioHalves_goes h.legal .audio0 .audio1) fun h => .get_bind (fun _ _ => rfl) ?_
  have hextension := h.frame haudio
  refine (extension_passes h.legal hext).bind fun h => ?_
  exact .state h.legal (meter_goes h.legal (h.frame hextension) hmeter) fun h =>
    .lastState h.legal (complete_goes h.legal hrest)

/-- The burst-info words follow those of the preamble (41_burst R167, R168). -/
theorem afterPreamble_withBurst_bi (s : State) (d : Depth) :
    (s.afterPreamble d).withBurst.bi = burstOf (s.wordAt 2) (s.wordAt 3) := by
  show burstOf ((s.advanced (2 * s.sampleBytes)).wordAt 0) ((s.advanced (2 * s.sampleBytes)).wordAt 1) = _
  rw [wordAt_advanced, wordAt_advanced]

/-- The payload of a burst can be read once `READ_FRAME` has reset the frame-scoped state (40_bitreader R132). -/
theorem afterBurst_legal (hp : s.par.Ok) : (s.afterPreamble d).afterBurst.Legal d := ⟨⟨rfl, Nat.one_pos⟩, hp⟩

/-- `READ_FRAME` accepts the burst that stands at `POS` (41_burst R164). -/
theorem acceptBurst_ahead (h : s.BurstAhead d) (q : Sequencer) (l : Option (ErrVal × SeqState)) :
    acceptBurst ((s.afterPreamble d).withBurst.under q l) = .ok () ((s.afterPreamble d).afterBurst.under q l) := by
  have hbi := afterPreamble_withBurst_bi s d
  refine acceptBurst_ok (s := (s.afterPreamble d).withBurst.under q l) ?_ fun htwo => ⟨d, rfl, ?_⟩
  · exact (congrArg BurstInfo.BI_DTYPE hbi).trans h.type28
  · show (s.afterPreamble d).withBurst.bi.BI_BITLEN.toNat / d.bits % 2 = 0
    rw [hbi]
    exact h.even htwo

end

/-- Settles O20: the header words, the tests, and the payload's states one after another. -/
theorem readFrameCompletes : Obligations.ReadFrameCompletes := by
  intro s m x d hb hp hburst hheader hwalk hmeta hext hmeter hrest hlen
  have hpayload := payloadStates_passes (afterBurst_legal hp) hburst.sync hheader hwalk hmeta hext hmeter hrest
  have hwords : s.src.POS + 4 * s.sampleBytes ≤ s.src.MEM.len := by
    have hpos : s.src.POS + 2 * s.sampleBytes + 2 * s.sampleBytes ≤ _ := hpayload.pos
    omega
  obtain ⟨q, ⟨hk, hs, ht⟩, hrun⟩ := hpayload.run hlen (s.seq.begun.inState .burstinfo) none
  refine runCommand_done (body := readFrameOp) hb ⟨q, hk, hs, ht, ?_⟩
  rw [readFrameOp_eq, op_bind_ok (burstStates_ok hburst.word1 hburst.word2 hwords _ _),
    op_bind_ok (acceptBurst_ahead hburst _ _), hrun]

end Sys2Proof.Machine
end

section
/-! PROOF. The layouts and `PCFG_TABLE` (00_scope R7). Most operations read none of them, so what is proved of such an
operation under admissible parameters holds under all of them. -/

namespace Sys2Proof

/-- The layouts and the table of `q`, everything else of `p` (00_scope R7). -/
def Params.withTables (p q : Params) : Params :=
  { p with
    tcLayout := q.tcLayout, ac3LayoutBase := q.ac3LayoutBase, ac3LayoutExt := q.ac3LayoutExt
    pcfgTable := q.pcfgTable }

/-- Only the layouts and the table are bounded by `Params.Ok`. -/
theorem Params.Ok.withTables {q : Params} (hq : q.Ok) (p : Params) : (p.withTables q).Ok :=
  ⟨hq.tc, hq.ac3Base, hq.ac3Ext, hq.row0, hq.row11, hq.row18, hq.rows⟩

/-- The values of 00_scope R7 are admissible. -/
theorem defaultParams_ok : defaultParams.Ok :=
  ⟨by decide, by decide, by decide, rfl, rfl, rfl, by decide⟩

end Sys2Proof

namespace Sys2Proof.Machine

/-- The state with the layouts and the table of `q`. -/
def State.withTables (s : State) (q : Params) : State := { s with par := s.par.withTables q }

/-- An outcome with the layouts and the table of `q`. -/
def outcomeWithTables {α : Type} (q : Params) : EStateM.Result Abort State α → EStateM.Result Abort State α
  | .ok a t => .ok a (t.withTables q)
  | .error e t => .error e (t.withTables q)

/-- The operation reads no layout and no table, and writes none. -/
def TableFree {α : Type} (x : Op α) : Prop := ∀ s q, x (s.withTables q) = outcomeWithTables q (x s)

section
variable {α β : Type} {d : Depth} {s t : State}

/-! ### How such operations compose -/

theorem TableFree.pure (a : α) : TableFree (pure a : Op α) := fun _ _ => rfl

theorem TableFree.bind {x : Op α} {f : α → Op β} (hx : TableFree x) (hf : ∀ a, TableFree (f a)) :
    TableFree (x >>= f) := by
  intro s q
  rw [op_bind, op_bind, hx]
  cases x s with
  | ok a t => exact hf a t q
  | error e t => rfl

/-- The state is read first, for something else than its tables. -/
theorem TableFree.get_bind {f : State → Op β} (hread : ∀ s q, f (s.withTables q) = f s) (hf : ∀ s, TableFree (f s)) :
    TableFree ((get : Op State) >>= f) := by
  intro s q
  rw [op_bind_ok (op_get _), op_bind_ok (op_get _), hread]
  exact hf s s q

theorem TableFree.whenOp (c : Bool) {x : Op Unit} (hx : TableFree x) : TableFree (whenOp c x) := by
  cases c with
  | false => exact .pure ()
  | true => exact hx

theorem TableFree.forEach {f : α → Op Unit} (hf : ∀ a, TableFree (f a)) : ∀ as, TableFree (forEach f as)
  | [] => .pure ()
  | a :: as => (hf a).bind fun _ => .forEach hf as

/-! ### The bit reader -/

theorem needDepth_tableFree : TableFree needDepth := by
  intro s q
  cases h : s.br.DEPTH with
  | none => rw [needDepth_none h, needDepth_none (s := s.withTables q) h]; rfl
  | some d => rw [needDepth_some h, needDepth_some (s := s.withTables q) h]; rfl

theorem srcReadWordOp_tableFree : TableFree srcReadWordOp := by
  intro s q
  rw [srcReadWordOp_run, srcReadWordOp_run, apply_ite (outcomeWithTables q)]
  rfl

theorem pullwordOp_tableFree : TableFree pullwordOp := by
  refine needDepth_tableFree.bind fun d => .bind (fun s q => ?_) fun _ => srcReadWordOp_tableFree.bind fun w => ?_
  · rw [needRoom, needRoom, apply_ite (outcomeWithTables q)]
    rfl
  · cases w <;> exact fun _ _ => rfl

theorem pullIfShort_tableFree (n : Nat) : TableFree (pullIfShort n) := by
  intro s q
  rw [pullIfShort, pullIfShort, apply_ite (outcomeWithTables q), ← pullwordOp_tableFree]
  rfl

theorem getbitsOp_tableFree (n : Nat) : TableFree (getbitsOp n) := by
  rw [getbitsOp]
  split_ifs
  · exact needDepth_tableFree.bind fun _ => (pullIfShort_tableFree n).bind fun _ =>
      (pullIfShort_tableFree n).bind fun _ _ _ => rfl
  · exact fun _ _ => rfl

/-! ### From admissible parameters to all -/

/-- Where such an operation goes, the parameters being admissible or not. -/
theorem Goes.run_of_tableFree {x : Op α} {a : α} (hx : TableFree x) (hs : s.Ready d) (hpar : t.par = s.par)
    (h : (s.withTables defaultParams).Legal d →
      Goes d x (s.withTables defaultParams) a (t.withTables defaultParams))
    (hlen : t.src.POS ≤ s.src.MEM.len) (q : Sequencer) (l : Option (ErrVal × SeqState)) :
    x (s.under q l) = .ok a (t.under q l) := by
  have hrun := (h ⟨⟨hs.depth, hs.res⟩, defaultParams_ok.withTables s.par⟩).run hlen q l
  have hback : ((t.withTables defaultParams).under q l).withTables s.par = t.under q l := by
    rw [← hpar]
    rfl
  rw [← hback]
  exact (hx _ s.par).trans (congrArg (outcomeWithTables s.par) hrun)

end

end Sys2Proof.Machine
end

section
/-! PROOF. The frame header (42_frame_header, 45_progconfig R270) by itself: what SYNC, METADATA, FRAMEDIST, PROGMETA
and CHANMETA leave as instructions, and the patterns of their fields. -/

namespace Sys2Proof.Machine

section
variable {d : Depth} {s t : State} {body : Op Unit} {st next : SeqState}

/-! ### Sequencer states -/

/-- A sequencer state whose operation goes the same way whatever `ST`, `STATUS` and the returned error are
(10_state R27). -/
theorem seqStep_under (h : ∀ q l, body (s.under q l) = .ok () (t.under q l)) (hseq : t.seq = s.seq)
    (hlast : t.lastErr = s.lastErr) : runOp (seqStep st body next) s = .next (t.entered next) := by
  refine seqStep_ok ?_
  rw [under_entered, under_entered, hseq, hlast]
  exact h _ _

/-! ### SYNC -/

/-- A region start does not depend on the sequencer state (40_bitreader R136). -/
theorem afterRegionStart_entered (s : State) (d : Depth) (first : Bool) (st : SeqState) :
    (s.entered st).afterRegionStart d first = (s.afterRegionStart d first).entered st := by
  rw [State.afterRegionStart, State.afterRegionStart, apply_ite (State.entered · st)]
  rfl

/-- The rest of `SYNC`: the region starts, then the word is compared (42_frame_header R191). -/
theorem syncWord_run (hs : s.Ready d) (w : Sample)
    (hlen : ((s.setBr { s.br with KEYP := w.getLsbD 0 }).afterRegionStart d true).src.POS ≤ s.src.MEM.len) :
    syncWord w s =
      if syncMatches d w then .ok () ((s.setBr { s.br with KEYP := w.getLsbD 0 }).afterRegionStart d true)
      else .error (.raised (.badSync w)) ((s.setBr { s.br with KEYP := w.getLsbD 0 }).afterRegionStart d true) := by
  have hflag : (s.setBr { s.br with KEYP := w.getLsbD 0 }).Ready d := ⟨hs.depth, hs.res⟩
  rw [syncWord, op_bind_ok (needDepth_some hs.depth), op_bind_ok (updBr_run _ s),
    op_bind_ok (regionStartOp_ok hflag true hlen)]
  split_ifs <;> rfl

/-- `SYNC` (42_frame_header R191). -/
theorem syncOp_run (hs : s.Ready d) (hlen : (s.afterSync d).src.POS ≤ s.src.MEM.len) :
    syncOp s =
      if syncMatches d (BitVec.ofNat 24 (s.field d 0 d.bits)) then .ok () (s.afterSync d)
      else .error (.raised (.badSync (BitVec.ofNat 24 (s.field d 0 d.bits)))) (s.afterSync d) := by
  have hbits : 1 ≤ d.bits := le_trans (by decide) d.bits_ge
  have hpos := (afterRegionStart_frame ((s.consume d d.bits).setBr
    { (s.consume d d.bits).br with KEYP := s.bitAt d (d.bits - 1) }) d true).2.2.2.2
  rw [syncOp, op_bind_ok (getSample_ok hs (hpos.trans hlen)), State.afterSync, ← field_getLsbD_zero s d hbits]
  refine syncWord_run (State.consume_ready hs _) _ ?_
  rw [field_getLsbD_zero s d hbits]
  exact hlen

theorem afterSync_entered (s : State) (d : Depth) (st : SeqState) :
    (s.entered st).afterSync d = (s.afterSync d).entered st :=
  afterRegionStart_entered ((s.consume d d.bits).setBr
    { (s.consume d d.bits).br with KEYP := s.bitAt d (d.bits - 1) }) d true st

/-- The sync word of a depth, as the sample its pattern stands for (30_encoding R97). -/
theorem syncConst_getLsbD_zero (d : Depth) (k : BitVec 1) :
    (d.syncConst ||| k.setWidth 24).getLsbD 0 = k.getLsbD 0 := by
  revert k
  cases d <;> decide

/-- A sync word matches at its own depth and at no other (30_encoding R97). -/
theorem syncMatches_syncConst (d d' : Depth) (k : BitVec 1) :
    syncMatches d (d'.syncConst ||| k.setWidth 24) = decide (d = d') := by
  revert k
  cases d <;> cases d' <;> decide

/-- The sync word of depth `d'`, once it has been read at depth `d` (42_frame_header R191). -/
theorem syncWord_syncConst (hs : s.Ready d) (d' : Depth) (k : BitVec 1)
    (hlen : ((s.setBr { s.br with KEYP := k.getLsbD 0 }).afterRegionStart d true).src.POS ≤ s.src.MEM.len) :
    (d = d' → runOp (syncWord (d'.syncConst ||| k.setWidth 24)) s =
      .next ((s.setBr { s.br with KEYP := k.getLsbD 0 }).afterRegionStart d true)) ∧
    (d ≠ d' → runOp (syncWord (d'.syncConst ||| k.setWidth 24)) s =
      .next (((s.setBr { s.br with KEYP := k.getLsbD 0 }).afterRegionStart d true).latch
        (.badSync (d'.syncConst ||| k.setWidth 24)))) := by
  have hrun := syncWord_run hs (d'.syncConst ||| k.setWidth 24)
  rw [syncConst_getLsbD_zero, syncMatches_syncConst] at hrun
  constructor
  · intro he
    refine runOp_ok ((hrun hlen).trans ?_)
    rw [if_pos (decide_eq_true he)]
  · intro hne
    refine runOp_raised ((hrun hlen).trans ?_)
    rw [if_neg (by simpa using hne)]

/-! ### Program-configuration codes -/

theorem pcfgRow_of_lt (s : State) {c : BitVec 6} (h : c.toNat < 24) : s.pcfgRow c = s.par.pcfgTable[c.toNat] :=
  dif_pos h

/-- The error of a code without a row (45_progconfig R270). -/
def pcfgError (c : BitVec 6) : ErrVal := if c = 63 then .pcfgIllegal 63 else .pcfgReserved c

/-- A code without a row is stored and raises (45_progconfig R270, 42_frame_header R192). -/
theorem pcfgField_raises {c : BitVec 6} (h : 23 < c.toNat) (s : State) :
    pcfgField c s = .error (.raised (pcfgError c)) (s.setFr { s.fr with PCFGC := c }) := by
  have hbad : ¬c ≤ 23#6 := Nat.not_le.mpr h
  have herr : (if c ≤ 62#6 then ErrVal.pcfgReserved c else .pcfgIllegal c) = pcfgError c := by
    by_cases hill : c = 63
    · subst hill
      rfl
    · rw [pcfgError, if_neg hill, if_pos (by bv_omega)]
  rw [pcfgField_bad hbad, herr]

theorem pcfgError_reserved {c : BitVec 6} (h : c.toNat ≤ 62) : pcfgError c = .pcfgReserved c :=
  if_neg (by rintro rfl; exact absurd h (by decide))

/-! ### Frame-rate codes -/

/-- A legal frame-rate code (42_frame_header R192, R193). -/
theorem frcField_legal {f : BitVec 4} (h1 : 1 ≤ f.toNat) (h8 : f.toNat ≤ 8) (s : State) :
    frcField f s = .ok () (s.setFr { s.fr with FRC := f, LFR := decide (1 ≤ f.toNat ∧ f.toNat ≤ 5) }) := by
  rw [frcField_run, frcIsReserved_eq, if_neg (by simp [h1, h8]), lfrOf_eq]

/-- A reserved frame-rate code (42_frame_header R192). -/
theorem frcField_raises {f : BitVec 4} (h : f = 0 ∨ 9 ≤ f.toNat) (s : State) :
    frcField f s = .error (.raised (.frcReserved f)) (s.setFr { s.fr with FRC := f }) := by
  have hres : ¬(1 ≤ f.toNat ∧ f.toNat ≤ 8) := by
    rcases h with rfl | h
    · decide
    · omega
  rw [frcField_run, frcIsReserved_eq, if_pos (decide_eq_true hres)]

/-- A metadata header that has been read: the id and the size are stored, then the codes take effect
(42_frame_header R192). -/
theorem exec_mdhdr (i : BitVec 4) (size : BitVec 10) (c : BitVec 6) (f : BitVec 4) (s : State) :
    exec (.mdhdr i size c f) s =
      runOp (pcfgField c >>= fun _ => frcField f) (s.setFr { s.fr with MDID := i, MDSIZE := size }) := rfl

/-! ### METADATA -/

/-- `METADATA` up to the program-configuration code (42_frame_header R192). -/
def readHeaderStart : Op (BitVec 6) := do
  let a ← getbitsOp 4
  setMdid a
  let b ← getbitsOp 10
  setMdsize b
  getbitsOp 6

theorem metadataOp_eq : metadataOp = readHeaderStart >>= fun c => pcfgField c >>= fun _ =>
    getbitsOp 4 >>= fun f => frcField f >>= fun _ => timecodeOp := by
  simp only [metadataOp, readHeaderStart, bind_assoc]

/-- The state with the id and the size of the metadata header read (42_frame_header R192). -/
def State.headerStart (s : State) (d : Depth) : State :=
  (s.consume d 20).setFr { s.fr with MDID := s.headerId d, MDSIZE := s.headerSize d }

theorem readHeaderStart_goes (hs : s.Legal d) : Goes d readHeaderStart s (s.headerPcfg d) (s.headerStart d) := by
  refine (getbits_goes hs (by decide)).bind fun h => (setMdid_goes h.legal _).bind fun h => ?_
  refine (getbits_at h.legal (by decide) rfl
    (congrArg (State.setFr · _) (s.consume_consume d 4 10)) rfl).bind fun h => ?_
  refine (setMdsize_goes h.legal _).bind fun h => ?_
  exact getbits_at h.legal (by decide) rfl (congrArg (State.setFr · _) (s.consume_consume d 14 6)) rfl

theorem readHeaderStart_tableFree : TableFree readHeaderStart :=
  (getbitsOp_tableFree 4).bind fun _ => .bind (fun _ _ => rfl) fun _ =>
    (getbitsOp_tableFree 10).bind fun _ => .bind (fun _ _ => rfl) fun _ => getbitsOp_tableFree 6

/-- The first three fields of `METADATA`, whether the parameters are admissible or not. -/
theorem readHeaderStart_run (hs : s.Ready d) (hlen : (s.consume d 20).src.POS ≤ s.src.MEM.len) :
    readHeaderStart s = .ok (s.headerPcfg d) (s.headerStart d) :=
  Goes.run_of_tableFree (t := s.headerStart d) readHeaderStart_tableFree hs rfl readHeaderStart_goes hlen s.seq
    s.lastErr

/-- `METADATA` on a program-configuration code without a row (42_frame_header R192, 60_exceptions R287). -/
theorem metadataOp_pcfgRaises (hs : s.Ready d) (hbad : 23 < (s.headerPcfg d).toNat)
    (hlen : (s.consume d 20).src.POS ≤ s.src.MEM.len) :
    metadataOp s = .error (.raised (pcfgError (s.headerPcfg d)))
      ((s.consume d 20).headerBegun (s.headerId d) (s.headerSize d) (s.headerPcfg d)) := by
  rw [metadataOp_eq, op_bind_ok (readHeaderStart_run hs hlen), op_bind_error (pcfgField_raises hbad _)]
  rfl

/-- The state with a legal program-configuration code read and resolved (42_frame_header R192). -/
def State.headerConfigured (s : State) (d : Depth) (n : Nat) : State :=
  ((s.consume d n).headerBegun (s.headerId d) (s.headerSize d) (s.headerPcfg d)).configured (s.headerPcfg d)

/-- The frame-rate code follows (30_encoding R99). -/
theorem getbitsOp_headerFrc (hs : s.Ready d) (hlen : (s.consume d 24).src.POS ≤ s.src.MEM.len) :
    getbitsOp 4 (s.headerConfigured d 20) = .ok (s.headerFrc d) (s.headerConfigured d 24) := by
  have hready : (s.headerConfigured d 20).Ready d := ⟨hs.depth, (State.consume_ready hs 20).res⟩
  have hfield : (s.headerConfigured d 20).field d 0 4 = s.field d 20 4 := s.field_consume d 20 0 4
  have hnext : (s.headerConfigured d 20).consume d 4 = s.headerConfigured d 24 :=
    congrArg (State.setFr · (s.headerConfigured d 20).fr) (s.consume_consume d 20 4)
  rw [getbitsOp_ok hready (by decide) (by rw [hnext]; exact hlen), hfield, hnext]
  rfl

/-- `METADATA` on a reserved frame-rate code (42_frame_header R192, 60_exceptions R287). -/
theorem metadataOp_frcRaises (hs : s.Ready d) (hpcfg : (s.headerPcfg d).toNat ≤ 23)
    (hbad : s.headerFrc d = 0 ∨ 9 ≤ (s.headerFrc d).toNat) (hlen : (s.consume d 24).src.POS ≤ s.src.MEM.len) :
    metadataOp s = .error (.raised (.frcReserved (s.headerFrc d)))
      ((s.headerConfigured d 24).setFr { (s.headerConfigured d 24).fr with FRC := s.headerFrc d }) := by
  have hcode : pcfgField (s.headerPcfg d) (s.headerStart d) = .ok () (s.headerConfigured d 20) :=
    pcfgField_ok (show s.headerPcfg d ≤ 23#6 from hpcfg) (s.headerStart d)
  rw [metadataOp_eq, op_bind_ok (readHeaderStart_run hs ((s.consume_pos_le d 20 4).trans hlen)), op_bind_ok hcode,
    op_bind_ok (getbitsOp_headerFrc hs hlen), op_bind_error (frcField_raises hbad _)]

/-! ### The timecode block -/

theorem afterTimecode_status (s : State) (fields : List ((TcField × Nat) × Nat)) :
    (s.afterTimecode fields).seq = s.seq ∧ (s.afterTimecode fields).lastErr = s.lastErr := by
  dsimp only [State.afterTimecode]
  split_ifs <;> exact ⟨rfl, rfl⟩

/-- `TIMECODE` (42_frame_header R195). -/
theorem timecodeOp_run (hs : s.Ready d) (hp : s.par.Ok) (hlen : (s.afterTimecodeBlock d).src.POS ≤ s.src.MEM.len) :
    timecodeOp s = .ok () (s.afterTimecodeBlock d) :=
  have hstatus := afterTimecode_status (s.consume d s.par.tcLayout.bits) (s.layoutFields d 0 s.par.tcLayout)
  (timecode_goes (hs.legal hp)).ok hstatus.1 hstatus.2 hlen

/-- The registers after a timecode block laid out as 42_frame_header R196 says. -/
theorem storeAll_defaultTcLayout (s : State) (d : Depth) (t : TcRegs) :
    t.storeAll (s.layoutFields d 0 defaultTcLayout) =
      { t with
        TC_HT := BitVec.ofNat 2 (s.field d 10 2), TC_HU := BitVec.ofNat 4 (s.field d 12 4)
        TC_MT := BitVec.ofNat 3 (s.field d 25 3), TC_MU := BitVec.ofNat 4 (s.field d 28 4)
        TC_ST := BitVec.ofNat 3 (s.field d 41 3), TC_SU := BitVec.ofNat 4 (s.field d 44 4)
        TC_DF := s.bitAt d 57
        TC_FT := BitVec.ofNat 2 (s.field d 58 2), TC_FU := BitVec.ofNat 4 (s.field d 60 4) } := by
  have hcut : ∀ off w, s.field d off w % 2 ^ w = s.field d off w := fun off w => Nat.mod_eq_of_lt (s.field_lt d off w)
  have hflag : (s.field d 57 1).testBit 0 = s.bitAt d 57 := by
    rw [State.field_one]
    cases s.bitAt d 57 <;> rfl
  simp only [defaultTcLayout, State.layoutFields, TcRegs.storeAll, List.foldl_cons, List.foldl_nil, TcRegs.store, hcut,
    TcRegs.put, Nat.reduceAdd, hflag]

/-! ### FRAMEDIST, PROGMETA and CHANMETA -/

theorem desccharOp_tableFree (p : Fin 8) (ch : BitVec 8) : TableFree (desccharOp p ch) := fun s q => by
  rw [desccharOp_run, desccharOp_run]
  rfl

theorem framedistOp_tableFree : TableFree framedistOp := by
  have hsize (c : Fin 8) : TableFree (readChsz c) := (getbitsOp_tableFree 10).bind fun _ _ _ => rfl
  have hext : TableFree readExtsz := (getbitsOp_tableFree 8).bind fun _ _ _ => rfl
  exact .get_bind (fun _ _ => rfl) fun s => (TableFree.forEach hsize _).bind fun _ => (hext.whenOp _).bind fun _ =>
    (getbitsOp_tableFree 8).bind fun _ _ _ => rfl

theorem progmetaOp_tableFree : TableFree progmetaOp := by
  have hprogram (p : Fin 8) : TableFree (readPmeta p) :=
    (getbitsOp_tableFree 8).bind fun c => .bind (fun _ _ => rfl) fun _ => (desccharOp_tableFree p c).bind fun _ =>
      (getbitsOp_tableFree 2).bind fun _ _ _ => rfl
  exact .get_bind (fun _ _ => rfl) fun _ => .forEach hprogram _

theorem chanmetaOp_tableFree : TableFree chanmetaOp := by
  have hchannel (c : Fin 8) : TableFree (readCmeta c) :=
    (getbitsOp_tableFree 4).bind fun _ => .bind (fun _ _ => rfl) fun _ =>
      (getbitsOp_tableFree 1).bind fun _ => .bind (fun _ _ => rfl) fun _ =>
        (getbitsOp_tableFree 10).bind fun _ => .bind (fun _ _ => rfl) fun _ =>
          (getbitsOp_tableFree 10).bind fun _ _ _ => rfl
  exact .get_bind (fun _ _ => rfl) fun _ => .forEach hchannel _

/-! ### Description characters -/

/-- A character that is none of STX, ETX and printable does nothing (42_frame_header R200). -/
theorem afterChar_other (s : State) (p : Fin 8) {ch : BitVec 8} (h2 : ch ≠ 2) (h3 : ch ≠ 3)
    (hprint : isPrintable ch = false) : s.afterChar p ch = s := by
  have htext : (s.desc[p]).after s.par.descMax ch = s.desc[p] := by
    rw [DescText.after, if_neg h2, if_neg fun h => h3 h.1, if_neg (by simp [hprint])]
  have hsame : vset s.desc p s.desc[p] = s.desc := Vector.set_getElem_self p.isLt
  have hevent : (s.desc[p]).published p ch = [] := if_neg fun h => h3 h.1
  rw [State.afterChar, htext, hsame, hevent, List.append_nil]
  rfl

theorem exec_descchar (p : Fin 8) (ch : BitVec 8) (s : State) : exec (.descchar p ch) s = .next (s.afterChar p ch) :=
  runOp_ok (desccharOp_run p ch s)

/-- Characters one after another (42_frame_header R200). -/
theorem feedChars_eq (p : Fin 8) (cs : List (BitVec 8)) (s : State) :
    feedChars p cs s = .next (cs.foldl (fun t c => t.afterChar p c) s) := by
  induction cs generalizing s with
  | nil => rfl
  | cons c cs ih => rw [feedChars, exec_descchar, List.foldl_cons, ← ih]

/-- The state with another description text for one program (10_state R40). -/
def State.withText (s : State) (p : Fin 8) (t : DescText) : State := s.setDesc (vset s.desc p t)

theorem withText_desc (s : State) (p : Fin 8) (t : DescText) : (s.withText p t).desc[p] = t :=
  Vector.getElem_set_self p.isLt

theorem withText_withText (s : State) (p : Fin 8) (t u : DescText) :
    (s.withText p t).withText p u = s.withText p u :=
  congrArg s.setDesc (Vector.set_set _ p.isLt)

/-- A character after a text (42_frame_header R200). -/
theorem withText_afterChar (s : State) (p : Fin 8) (t : DescText) (ch : BitVec 8) :
    (s.withText p t).afterChar p ch =
      (s.withText p (t.after s.par.descMax ch)).setEv (s.ev ++ t.published p ch) := by
  rw [State.afterChar, withText_desc]
  exact congrArg (State.setEv · _) (withText_withText s p t _)

theorem isPrintable_ne {ch : BitVec 8} (h : isPrintable ch = true) : ch ≠ 2 ∧ ch ≠ 3 := by
  constructor <;> rintro rfl <;> exact absurd h (by decide)

/-- A printable character is put at the end of the open run, which is cut at `max` (42_frame_header R200). -/
theorem after_printable {run old : List (BitVec 8)} {v : Bool} {ch : BitVec 8} {max : Nat}
    (hch : isPrintable ch = true) (hlen : run.length ≤ max) :
    (⟨run, true, old, v⟩ : DescText).after max ch = ⟨(run ++ [ch]).take max, true, old, v⟩ := by
  obtain ⟨h2, h3⟩ := isPrintable_ne hch
  rw [DescText.after, if_neg h2, if_neg fun h => h3 h.1]
  rcases Nat.lt_or_eq_of_le hlen with hroom | hfull
  · rw [if_pos ⟨hch, rfl, hroom⟩, List.take_of_length_le (by simpa using hroom)]
  · rw [if_neg fun h => absurd h.2.2 (by simp [hfull]), List.take_left' hfull]

/-- Cutting a part first does not show. -/
theorem take_take_append {α : Type} (n : Nat) (xs ys : List α) : (xs.take n ++ ys).take n = (xs ++ ys).take n := by
  rcases Nat.le_total n xs.length with h | h
  · rw [List.take_append_of_le_length h, List.take_append_of_le_length (by simp [h]), List.take_take, Nat.min_self]
  · rw [List.take_of_length_le h]

/-- A printable text in the open run, which is cut at `DESC_MAX` (42_frame_header R200). -/
theorem foldl_afterChar_printable (s : State) (p : Fin 8) {text : List (BitVec 8)}
    (htext : ∀ c ∈ text, isPrintable c = true) {run old : List (BitVec 8)} {v : Bool}
    (hlen : run.length ≤ s.par.descMax) :
    text.foldl (fun u c => u.afterChar p c) (s.withText p ⟨run, true, old, v⟩) =
      s.withText p ⟨(run ++ text).take s.par.descMax, true, old, v⟩ := by
  induction text generalizing run with
  | nil => rw [List.append_nil, List.take_of_length_le hlen]; rfl
  | cons c cs ih =>
    have hc := htext c List.mem_cons_self
    have hevent : (⟨run, true, old, v⟩ : DescText).published p c = [] := if_neg fun h => (isPrintable_ne hc).2 h.1
    have hstep : (s.withText p ⟨run, true, old, v⟩).afterChar p c
        = s.withText p ⟨(run ++ [c]).take s.par.descMax, true, old, v⟩ := by
      rw [withText_afterChar, after_printable hc hlen, hevent, List.append_nil]
      rfl
    rw [List.foldl_cons, hstep, ih (fun x hx => htext x (List.mem_cons_of_mem c hx)) (List.length_take_le _ _),
      take_take_append, List.append_assoc, List.singleton_append]

end

/-! ### Obligations -/

/-- Settles O40: `SYNC` is its word read and `syncWord`, which is also the meaning of the three patterns. -/
theorem syncResult : Obligations.SyncResult := by
  refine ⟨fun s d hs hlen => ?_, fun s k d hs hlen => ?_⟩
  · have hrun := syncOp_run (s := s.entered .sync) (d := d) ⟨hs.depth, hs.res⟩
    rw [afterSync_entered] at hrun
    exact ⟨fun hmatch => seqStep_ok ((hrun hlen).trans (if_pos hmatch)),
      fun hother => seqStep_raised ((hrun hlen).trans (if_neg (ne_true_of_eq_false hother)))⟩
  · obtain ⟨h16, n16⟩ := syncWord_syncConst hs .d16 k hlen
    obtain ⟨h20, n20⟩ := syncWord_syncConst hs .d20 k hlen
    obtain ⟨h24, n24⟩ := syncWord_syncConst hs .d24 k hlen
    exact ⟨h16, h20, h24, n16, n20, n24⟩

/-- Settles O41: the header fields and the timecode block, the two codes that raise, and the block by its layout. -/
theorem metadataResult : Obligations.MetadataResult := by
  refine ⟨fun s d hs => ⟨fun hp hh hlen => ?_, fun hbad hlen => ?_, fun hpcfg hbad hlen => ?_, fun hp hlen => ?_,
    fun hlay => ?_⟩, fun s vals => ?_⟩
  · obtain ⟨hseq, hlast⟩ := afterTimecode_status _ _
    exact seqStep_under ((metadata_goes (hs.legal hp) hh).run hlen) hseq hlast
  · exact seqStep_raised (metadataOp_pcfgRaises (s := s.entered .metadata) ⟨hs.depth, hs.res⟩ hbad hlen)
  · exact seqStep_raised (metadataOp_frcRaises (s := s.entered .metadata) ⟨hs.depth, hs.res⟩ hpcfg hbad hlen)
  · exact runOp_ok (timecodeOp_run hs hp hlen)
  · have hdefault : s.par.tcLayout = defaultTcLayout := hlay
    rw [hdefault, storeAll_defaultTcLayout]
    exact ⟨rfl, rfl, rfl, rfl, rfl, rfl, rfl, rfl, rfl, rfl, rfl, rfl⟩
  · exact runOp_ok ((op_bind_ok (updTc_run _ s)).trans (timecodeDone_run _ s))

/-- Settles O44: none of the three states reads a layout or the table, so the loops' results stand for any. -/
theorem headerStates : Obligations.HeaderStates := by
  intro s d hs hch hprog
  refine ⟨fun hlen => ?_, fun hlen => ?_, fun hlen => ?_⟩
  · refine seqStep_under (t := s.afterFramedist d) (Goes.run_of_tableFree framedistOp_tableFree hs rfl ?_ hlen) rfl rfl
    exact fun h => framedist_goes h ⟨hch, hprog⟩
  · refine seqStep_under (t := s.afterProgmeta d) (Goes.run_of_tableFree progmetaOp_tableFree hs rfl ?_ hlen) rfl rfl
    exact fun h => progmeta_goes h ⟨hch, hprog⟩
  · refine seqStep_under (t := s.afterChanmeta d) (Goes.run_of_tableFree chanmetaOp_tableFree hs rfl ?_ hlen) rfl rfl
    exact fun h => chanmeta_goes h ⟨hch, hprog⟩

/-- Settles O47: STX opens an empty run, the text fills it, ETX publishes it. -/
theorem textRunPublished : Obligations.TextRunPublished := by
  intro s p text htext
  have hopen : s.afterChar p 2 = s.withText p ⟨[], true, (s.desc[p]).DESC, (s.desc[p]).DESC_V⟩ :=
    congrArg (State.setEv _) (List.append_nil s.ev)
  have hfill := foldl_afterChar_printable s p htext (run := []) (old := (s.desc[p]).DESC) (v := (s.desc[p]).DESC_V)
    (Nat.zero_le _)
  rw [feedChars_eq, List.cons_append, List.foldl_cons, List.foldl_append, hopen, hfill, List.nil_append,
    List.foldl_cons, List.foldl_nil, withText_afterChar, Nat.min_comm, ← List.length_take]
  rfl

/-- Settles O42: each class by `pcfgField` and `frcField`, one after another in a metadata header. -/
theorem codeClasses : Obligations.CodeClasses := by
  refine fun s => ⟨fun c hc => ⟨pcfgRow_of_lt s hc, ?_, ?_⟩, fun c h24 h62 => ?_, ?_, fun f h1 h5 => ?_,
    fun f h6 h8 => ?_, fun f h => ?_, fun i size c f => ?_⟩
  · have hle : c ≤ 23#6 := Nat.le_of_lt_succ hc
    rw [← pcfgRow_of_lt s hc]
    exact runOp_bind_ok (pcfgOp_ok hle s)
  · have hle : c ≤ 23#6 := Nat.le_of_lt_succ hc
    rw [← pcfgRow_of_lt s hc]
    exact runOp_ok (pcfgField_ok hle s)
  · rw [← pcfgError_reserved h62]
    exact runOp_raised (pcfgField_raises h24 s)
  · exact runOp_raised (pcfgField_raises (c := 63) (by decide) s)
  · have hrun := frcField_legal h1 (h5.trans (by decide)) s
    rw [decide_eq_true ⟨h1, h5⟩] at hrun
    exact runOp_ok hrun
  · have hrun := frcField_legal (le_trans (by decide) h6) h8 s
    rw [decide_eq_false (by omega)] at hrun
    exact runOp_ok hrun
  · exact runOp_raised (frcField_raises h s)
  · have hlegal (hc : c.toNat ≤ 23) :=
      runOp_bind_ok (f := fun _ => frcField f) (pcfgField_ok (show c ≤ 23#6 from hc)
        (s.setFr { s.fr with MDID := i, MDSIZE := size }))
    have hraises (hc : 23 < c.toNat) :=
      runOp_raised (op_bind_error (f := fun _ => frcField f) (pcfgField_raises hc
        (s.setFr { s.fr with MDID := i, MDSIZE := size })))
    refine ⟨fun hc h1 h8 => ?_, fun hc hf => ?_, fun h24 h62 => ?_, fun hc => ?_⟩ <;> rw [exec_mdhdr]
    · exact (hlegal hc).trans (runOp_ok (frcField_legal h1 h8 _))
    · exact (hlegal hc).trans (runOp_raised (frcField_raises hf _))
    · rw [hraises h24, pcfgError_reserved h62]
      rfl
    · subst hc
      exact hraises (by decide)

/-- Settles O45: each pattern is one update. -/
theorem fieldPatterns : Obligations.FieldPatterns := fun _ _ =>
  ⟨fun _ => rfl, fun _ => rfl, fun _ => rfl, fun _ => rfl, fun _ => rfl, fun _ _ _ _ => rfl⟩

/-- Settles O46: every pattern is `DESCCHAR`, and what is neither STX, ETX nor printable does nothing. -/
theorem characterPatterns : Obligations.CharacterPatterns := by
  refine fun s p => ⟨?_, exec_descchar p 2 s, exec_descchar p 3 s, fun ch _ => exec_descchar p ch s, fun ch hch => ?_,
    fun ch => exec_descchar p ch s, fun ch b => ?_⟩
  · have hnul := exec_descchar p 0 s
    rwa [afterChar_other s p (by decide) (by decide) (by decide)] at hnul
  · have hother := exec_descchar p ch s
    simp only [Instr.wellFormed, Bool.not_eq_true', Bool.or_eq_false_iff, beq_eq_false_iff_ne] at hch
    obtain ⟨⟨⟨hprint, -⟩, h2⟩, h3⟩ := hch
    rwa [afterChar_other s p h2 h3 hprint] at hother
  · refine runOp_ok ?_
    have hdchar : setDchar p ch s = .ok () (s.setPg { s.pg with DCHAR := vset s.pg.DCHAR p ch }) := rfl
    rw [op_bind_ok hdchar, op_bind_ok (desccharOp_run p ch _)]
    rfl

/-- Settles O48: neither operation aborts. -/
theorem continuityResult : Obligations.ContinuityResult := fun s =>
  ⟨fun idx df => runOp_ok (continuityUpdateOp_run idx df s), runOp_ok (continuityInvalidateOp_run s)⟩

end Sys2Proof.Machine
end

section
/-! PROOF. The metadata subsegments by themselves (43_subsegments): AC3 records and additional information, AC3INFO,
sub-blocks, the loop, and the two sequencer states around it. What each operation does is said by its `Goes` above; here
it is added that none of them touches `ST`, `STATUS` and the returned error, so that it runs as an instruction. -/

namespace Sys2Proof.Machine

section
variable {d : Depth} {s t u : State} {base : Bool} {p : Fin 8}

/-! ### `ST`, `STATUS` and the returned error stay -/

/-- `ST`, `STATUS` and the returned error are the same (10_state R26, R30; log 5). -/
def State.SameStatus (s t : State) : Prop := t.seq = s.seq ∧ t.lastErr = s.lastErr

theorem State.SameStatus.refl (s : State) : s.SameStatus s := ⟨rfl, rfl⟩

theorem State.SameStatus.trans (h1 : s.SameStatus t) (h2 : t.SameStatus u) : s.SameStatus u :=
  ⟨h2.1.trans h1.1, h2.2.trans h1.2⟩

theorem State.SameStatus.foldl {α : Type} {g : State → α → State} (hg : ∀ (t : State) (a : α), t.SameStatus (g t a)) :
    ∀ (as : List α) (s : State), s.SameStatus (as.foldl g s)
  | [], s => .refl s
  | a :: as, s => (hg s a).trans (.foldl hg as (g s a))

theorem consume_sameStatus (s : State) (d : Depth) (n : Nat) : s.SameStatus (s.consume d n) := ⟨rfl, rfl⟩

theorem setRecs_sameStatus (s : State) (base : Bool) (x : Vector Ac3Rec 8) : s.SameStatus (s.setRecs base x) := by
  cases base <;> exact ⟨rfl, rfl⟩

theorem afterAc3Block_sameStatus (s : State) (d : Depth) (ext base : Bool) (p : Fin 8) :
    s.SameStatus (s.afterAc3Block d ext base p) :=
  setRecs_sameStatus (s.consume d (s.par.ac3Layout ext).bits) base _

theorem afterAddbsi_sameStatus (s : State) (d : Depth) (base : Bool) (p : Fin 8) :
    s.SameStatus (s.afterAddbsi d base p) := by
  rw [State.afterAddbsi]
  split_ifs
  · exact setRecs_sameStatus (s.consume d _) base _
  · exact setRecs_sameStatus (s.consume d 1) base _

theorem afterAc3info_sameStatus (s : State) (d : Depth) (ext base : Bool) :
    s.SameStatus (s.afterAc3info d ext base) :=
  (State.SameStatus.foldl (fun t p => afterAc3Block_sameStatus t d ext base p) _ s).trans
    (.foldl (fun t p => afterAddbsi_sameStatus t d base p) _ _)

theorem afterReconcile_sameStatus (s : State) (d : Depth) (id : BitVec 4) (len : BitVec 12) (used : Nat) :
    s.SameStatus (s.afterReconcile d id len used) := by
  rw [State.afterReconcile]
  split_ifs <;> exact ⟨rfl, rfl⟩

theorem afterSubBlock_sameStatus (s : State) (d : Depth) (base : Bool) (id : BitVec 4) (len : BitVec 12) :
    s.SameStatus (s.afterSubBlock d base id len) := by
  rw [State.afterSubBlock]
  split_ifs
  · exact (afterAc3info_sameStatus s d _ base).trans (afterReconcile_sameStatus _ d id len _)
  · exact consume_sameStatus s d len.toNat

theorem SubWalk.sameStatus (h : SubWalk d base s t) : s.SameStatus t := by
  induction h with
  | done s _ => exact consume_sameStatus s d 4
  | block s t _ _ ih => exact (afterSubBlock_sameStatus (s.consume d 16) d base _ _).trans ih

theorem afterRegionStart_sameStatus (s : State) (d : Depth) (first : Bool) :
    s.SameStatus (s.afterRegionStart d first) := by
  rw [State.afterRegionStart]
  split_ifs <;> exact ⟨rfl, rfl⟩

theorem afterSegment_sameStatus (s : State) (d : Depth) (size : Nat) (r : Region) :
    s.SameStatus (s.afterSegment d size r) := by
  have hpad : s.SameStatus (s.afterPad d size r) := by
    rw [State.afterPad]
    split_ifs <;> exact ⟨rfl, rfl⟩
  exact hpad

/-- By itself, as an instruction. -/
theorem Goes.runOp {x : Op Unit} (h : Goes d x s () t) (hst : s.SameStatus t) (hlen : t.src.POS ≤ s.src.MEM.len) :
    runOp x s = .next t := runOp_ok (h.ok hst.1 hst.2 hlen)

/-- After a sequencer state has been entered (10_state R27). -/
theorem Goes.ok_entered {x : Op Unit} (h : Goes d x s () t) (hst : s.SameStatus t) (hlen : t.src.POS ≤ s.src.MEM.len)
    (st : SeqState) : x (s.entered st) = .ok () (t.entered st) := by
  rw [under_entered, under_entered, hst.1, hst.2]
  exact h.run hlen _ _

/-! ### Records -/

theorem updRec_withRec (base : Bool) (p : Fin 8) (f : Ac3Rec → Ac3Rec) (s : State) :
    updRec base p f s = .ok () (s.withRec base p f) := rfl

/-- The end of a block, the parameters being admissible or not (43_subsegments R224, R228). -/
theorem ac3BlockDone_run (ext base : Bool) (p : Fin 8) (f : Ac3Rec → Ac3Rec) (s : State) :
    ac3BlockDone ext base p (s.withRec base p f) =
      .ok () (s.afterRecord base p { f ((s.recs base)[p]) with VALID := true, EXT := ext }) := by
  have hcheck := ac3checkOp_run base p (s.withRec base p fun r => { f r with EXT := ext, VALID := true })
  rw [withRec_recs] at hcheck
  rw [ac3BlockDone, op_bind_ok (updRec_withRec base p _ _), withRec_withRec, hcheck]
  cases base <;> rfl

/-- A block whose values are at hand (43_subsegments R224, R228). -/
theorem storeBlock_run (ext base : Bool) (p : Fin 8) (fields : List ((Ac3Field × Nat) × Nat)) (s : State) :
    runOp (updRec base p (fun r => r.storeAll fields) >>= fun _ => ac3BlockDone ext base p) s =
      .next (s.afterRecord base p { ((s.recs base)[p]).storeAll fields with VALID := true, EXT := ext }) :=
  runOp_ok ((op_bind_ok (updRec_withRec base p _ s)).trans
    (ac3BlockDone_run ext base p (fun r => r.storeAll fields) s))

theorem State.Ready.withRec (hs : s.Ready d) (base : Bool) (p : Fin 8) (f : Ac3Rec → Ac3Rec) :
    (s.withRec base p f).Ready d := by cases base <;> exact ⟨hs.depth, hs.res⟩

/-! ### The fields of a layout -/

theorem layoutBits_cons {φ : Type} (e : φ × Nat) (l : Layout φ) : Layout.bits (e :: l) = e.2 + l.bits := List.sum_cons

theorem layoutFields_append {φ : Type} (s : State) (d : Depth) (off : Nat) (before after : Layout φ) :
    s.layoutFields d off (before ++ after) =
      s.layoutFields d off before ++ s.layoutFields d (off + before.bits) after := by
  induction before generalizing off with
  | nil => rfl
  | cons e rest ih =>
    rw [layoutBits_cons, ← Nat.add_assoc]
    exact congrArg (List.cons _) (ih (off + e.2))

/-- The values stand with the entries of the layout. -/
theorem layoutFields_map_fst {φ : Type} (s : State) (d : Depth) (off : Nat) (l : Layout φ) :
    (s.layoutFields d off l).map Prod.fst = l := by
  induction l generalizing off with
  | nil => rfl
  | cons e rest ih => exact congrArg (List.cons e) (ih (off + e.2))

/-- A field that no entry names is kept (43_subsegments R224). -/
theorem get_storeAll_of_unnamed {f : Ac3Field} {fields : List ((Ac3Field × Nat) × Nat)} (r : Ac3Rec)
    (h : ∀ x ∈ fields.map Prod.fst, x.1 ≠ f) : (r.storeAll fields).get f = r.get f := by
  induction fields generalizing r with
  | nil => rfl
  | cons x rest ih =>
    obtain ⟨hx, hrest⟩ := List.forall_mem_cons.mp h
    exact (ih (r.store x.1 x.2) hrest).trans (Ac3Rec.get_store_ne hx r x.1.2 x.2)

theorem get_storeAll_layoutFields_unnamed {f : Ac3Field} {l : Layout Ac3Field} (s : State) (d : Depth) (off : Nat)
    (r : Ac3Rec) (h : ∀ x ∈ l, x.1 ≠ f) : (r.storeAll (s.layoutFields d off l)).get f = r.get f :=
  get_storeAll_of_unnamed r ((layoutFields_map_fst s d off l).symm ▸ h)

/-- A field takes the bits after those of the fields before it (43_subsegments R224). -/
theorem get_storeAll_layoutFields_named {f : Ac3Field} {after : Layout Ac3Field} (s : State) (d : Depth) (r : Ac3Rec)
    (before : Layout Ac3Field) (w : Nat) (h : ∀ x ∈ after, x.1 ≠ f) :
    (r.storeAll (s.layoutFields d 0 (before ++ (f, w) :: after))).get f = BitVec.ofNat 32 (s.field d before.bits w) := by
  have hsplit : r.storeAll (s.layoutFields d 0 (before ++ (f, w) :: after)) =
      ((r.storeAll (s.layoutFields d 0 before)).store (f, w) (s.field d before.bits w)).storeAll
        (s.layoutFields d (before.bits + w) after) := by
    rw [layoutFields_append, Nat.zero_add]
    exact List.foldl_append
  rw [hsplit, get_storeAll_layoutFields_unnamed s d _ _ h, Ac3Rec.get_store, Nat.mod_eq_of_lt (s.field_lt d _ w)]

/-! ### Additional information, the parameters being admissible or not -/

theorem TableFree.repeatOp {x : Op Unit} (hx : TableFree x) : ∀ n, TableFree (repeatOp x n)
  | 0 => .pure ()
  | n + 1 => hx.bind fun _ => .repeatOp hx n

theorem skipbitsOp_tableFree (k : Nat) : TableFree (skipbitsOp k) :=
  have hdrop (n : Nat) : TableFree (dropBits n) := (getbitsOp_tableFree n).bind fun _ => .pure ()
  (TableFree.repeatOp (hdrop 32) _).bind fun _ => (hdrop _).whenOp _

theorem updRec_tableFree (base : Bool) (p : Fin 8) (f : Ac3Rec → Ac3Rec) : TableFree (updRec base p f) := by
  cases base <;> exact fun _ _ => rfl

theorem addbsiOp_tableFree (base : Bool) (p : Fin 8) : TableFree (addbsiOp base p) := by
  refine (getbitsOp_tableFree 1).bind fun e => (updRec_tableFree base p _).bind fun _ => ?_
  cases e.getLsbD 0 with
  | false =>
    rw [if_neg Bool.false_ne_true]
    exact updRec_tableFree base p _
  | true =>
    rw [if_pos rfl]
    exact (getbitsOp_tableFree 6).bind fun len => (updRec_tableFree base p _).bind fun _ => skipbitsOp_tableFree _

theorem afterAddbsi_withTables (s : State) (d : Depth) (base : Bool) (p : Fin 8) (q : Params) :
    (s.withTables q).afterAddbsi d base p = (s.afterAddbsi d base p).withTables q := by
  rw [State.afterAddbsi, State.afterAddbsi, apply_ite (State.withTables · q)]
  cases base <;> rfl

theorem afterAddbsi_par (s : State) (d : Depth) (base : Bool) (p : Fin 8) : (s.afterAddbsi d base p).par = s.par := by
  rw [State.afterAddbsi]
  split_ifs <;> cases base <;> rfl

/-- `ADDBSI` (43_subsegments R225). -/
theorem addbsiOp_run (hs : s.Ready d) (base : Bool) (p : Fin 8)
    (hlen : (s.afterAddbsi d base p).src.POS ≤ s.src.MEM.len) :
    addbsiOp base p s = .ok () (s.afterAddbsi d base p) := by
  have hrun := Goes.run_of_tableFree (addbsiOp_tableFree base p) hs (afterAddbsi_par s d base p)
    (fun h => afterAddbsi_withTables s d base p _ ▸ addbsi_goes h base p) hlen s.seq s.lastErr
  obtain ⟨hseq, hlast⟩ := afterAddbsi_sameStatus s d base p
  rwa [under_self, ← hseq, ← hlast, under_self] at hrun

/-- Additional information of a known length (43_subsegments R225). -/
theorem setAddbsie_addbsiPresent_run (hs : s.Ready d) (base : Bool) (p : Fin 8) (len : BitVec 6)
    (hlen : (s.consume d (8 * len.toNat)).src.POS ≤ s.src.MEM.len) :
    (setAddbsie base p true >>= fun _ => addbsiPresent base p len) s =
      .ok () ((s.consume d (8 * len.toNat)).withAddbsi base p true len) := by
  rw [setAddbsie, op_bind_ok (updRec_withRec base p _ s), addbsiPresent, op_bind_ok (updRec_withRec base p _ _),
    withRec_withRec, skipbitsOp_ok (hs.withRec base p _) (by cases base <;> exact hlen), withRec_consume]
  rfl

/-! ### Sub-blocks -/

/-- A sub-block by itself (43_subsegments R222). -/
theorem subBlock_runOp (hs : s.Legal d) (base : Bool) (id : BitVec 4) (len : BitVec 12)
    (hlen : (s.afterSubBlock d base id len).src.POS ≤ s.src.MEM.len) :
    runOp (subBlock base id len) s = .next (s.afterSubBlock d base id len) :=
  (subBlock_goes hs base id len).runOp (afterSubBlock_sameStatus s d base id len) hlen

/-- A sub-block that is not interpreted (43_subsegments R222, R223). -/
theorem subBlock_skipped (hs : s.Legal d) {base : Bool} {id : BitVec 4} (hid : ¬(id = 1 ∨ (id = 2 ∧ base = true)))
    (len : BitVec 12) (hlen : (s.consume d len.toNat).src.POS ≤ s.src.MEM.len) :
    runOp (subBlock base id len) s = .next ((s.consume d len.toNat).counted base) := by
  have hskip : s.afterSubBlock d base id len = (s.consume d len.toNat).counted base := if_neg hid
  have hrun := subBlock_runOp hs base id len
  rw [hskip] at hrun
  exact hrun hlen

/-! ### Segments -/

/-- `EXTSUBSEG`, its region and its loop taken together (43_subsegments R221). -/
theorem extsubsegOp_eq : extsubsegOp = (regionStartOp false >>= fun _ => subsegloopOp false) >>= fun _ =>
    (get : Op State) >>= fun u => padsegOp u.fr.EXTSZ.toNat .extMeta >>= fun _ => crccheckOp .extMeta := by
  rw [extsubsegOp, bind_assoc]

/-- A segment whose loop `walk` overran it, under the policy `fault`: the error comes before the codeword
(43_subsegments R220, R221, 40_bitreader R137). -/
theorem segment_overrun {walk : Op Unit} {size : FrameRegs → Nat} {r : Region} {st next : SeqState}
    (hwalk : Goes d walk s () t) (hst : s.SameStatus t) (hpad : ¬t.PadOk d (size t.fr))
    (hlen : t.src.POS ≤ s.src.MEM.len) :
    runOp (seqStep st (walk >>= fun _ => (get : Op State) >>= fun u => padsegOp (size u.fr) r >>= fun _ =>
      crccheckOp r) next) s = .next ((t.entered st).latch (.segOverrun r)) := by
  obtain ⟨hover, hfault⟩ := not_or.mp hpad
  have hraise : padsegOp (size t.fr) r (t.entered st) = .error (.raised (.segOverrun r)) (t.entered st) :=
    (padsegOp_past (s := t.entered st) hwalk.legal.ready.depth r (Nat.not_le.mp hover)).trans
      (if_pos ((Bool.not_eq_false _).mp hfault))
  refine seqStep_raised ?_
  rw [op_bind_ok (hwalk.ok_entered hst hlen st), op_bind_ok (op_get _)]
  exact op_bind_error hraise

end

/-! ### Obligations -/

/-- Settles O53: along the walk by `subsegloop_goes`, and no sub-block touches `STATUS`. -/
theorem subsegLoopWalks : Obligations.SubsegLoopWalks := fun _ _ _ _ hs hp hwalk hlen =>
  (subsegloop_goes hwalk (hs.legal hp)).runOp hwalk.sameStatus hlen

/-- Settles O52: interpreted or skipped, by the id. -/
theorem subBlockResult : Obligations.SubBlockResult := by
  refine fun s d base len hs hp => ⟨fun hlen => ?_, fun hlen => ?_, fun hlen => ⟨?_, ?_, fun i => ?_, fun i => ?_⟩⟩
  · exact subBlock_runOp (hs.legal hp) base 1 len hlen
  · exact subBlock_runOp (hs.legal hp) true 2 len hlen
  · exact subBlock_skipped (hs.legal hp) (by decide) len hlen
  · exact subBlock_skipped (hs.legal hp) (by revert base; decide) len hlen
  · exact subBlock_skipped (hs.legal hp) (by revert base i; decide) len hlen
  · exact subBlock_skipped (hs.legal hp) (by revert base i; decide) len hlen

/-- Settles O54: the walk, then the end of the segment, which an overrun under the policy `fault` cuts short. -/
theorem segmentStates : Obligations.SegmentStates := by
  refine ⟨fun s t d hs hp hwalk => ⟨fun hpad hlen => ?_, fun hpad hlen => ?_⟩,
    fun s t d hs hp hwalk => ⟨fun hpad hlen => ?_, fun hpad hlen => ?_⟩⟩
  · obtain ⟨hseq, hlast⟩ := hwalk.sameStatus.trans (afterSegment_sameStatus t d t.fr.MDSIZE.toNat .metadata)
    exact seqStep_under ((mdsubseg_goes (hs.legal hp) hwalk hpad).run hlen) hseq hlast
  · exact segment_overrun (size := fun f => f.MDSIZE.toNat) (subsegloop_goes hwalk (hs.legal hp)) hwalk.sameStatus
      hpad hlen
  · obtain ⟨hseq, hlast⟩ := ((afterRegionStart_sameStatus s d false).trans hwalk.sameStatus).trans
      (afterSegment_sameStatus t d t.fr.EXTSZ.toNat .extMeta)
    exact seqStep_under ((extsubseg_goes (hs.legal hp) hwalk hpad).run hlen) hseq hlast
  · have hloop := (regionStart_goes (hs.legal hp) false).bind (f := fun _ => subsegloopOp false) fun h =>
      subsegloop_goes hwalk h.legal
    have hover := segment_overrun (size := fun f => f.EXTSZ.toNat) (r := .extMeta) (st := .extsubseg)
      (next := .audioext) hloop ((afterRegionStart_sameStatus s d false).trans hwalk.sameStatus) hpad hlen
    rw [← extsubsegOp_eq] at hover
    exact hover

/-- Settles O50: the store law, the patterns one record update each, and `ADDBSI` under any parameters. -/
theorem ac3Patterns : Obligations.Ac3Patterns := by
  refine ⟨fun r f g w v => ⟨Ac3Rec.get_store r f w v, fun hne => Ac3Rec.get_store_ne hne.symm r w v⟩,
    fun s base p => ⟨fun vals => ?_, fun vals more => ?_, rfl⟩, fun s d base p len hs hlen => ?_,
    fun s d base p hs hlen => ?_⟩
  · exact storeBlock_run false base p _ s
  · exact storeBlock_run true base p _ s
  · exact runOp_ok (setAddbsie_addbsiPresent_run hs base p len hlen)
  · exact runOp_ok (addbsiOp_run hs base p hlen)

/-- Settles O51: the loops over the programs, and where the fields of a layout stand. -/
theorem ac3InfoResult : Obligations.Ac3InfoResult :=
  ⟨fun s d ext base hs hp hlen =>
      (ac3info_goes (hs.legal hp) ext base).runOp (afterAc3info_sameStatus s d ext base) hlen,
    fun s d r before _ _ w h => get_storeAll_layoutFields_named s d r before w h,
    fun s d r _ _ h => get_storeAll_layoutFields_unnamed s d 0 r h, rfl, rfl⟩

/-- Settles O49: `AC3CHECK` emits by the range of the code and does nothing else. -/
theorem reservedRateWarns : Obligations.ReservedRateWarns := fun s base p => runOp_ok (ac3checkOp_run base p s)

end Sys2Proof.Machine
end

section
/-! PROOF. Audio, meter and completion by themselves (44_audio_meter). The loops over samples and meter values read no
layout and no table, so where they go under admissible parameters they go under all; region starts, padding and
codewords are taken by their own lemmas. Raw words of padding are counted one by one until the stream ends. -/

namespace Sys2Proof.Machine

section
variable {d : Depth} {s : State} {body : Op Unit} {st next : SeqState} {r r0 r1 : Region} {lo hi n : Nat}

/-! ### Sequencer states -/

theorem State.Ready.entered (hs : s.Ready d) (st : SeqState) : (s.entered st).Ready d := ⟨hs.depth, hs.res⟩

/-- The operation of a state that ends its command (10_state R27, 41_burst R160). -/
theorem lastStep_ok {t : State} (h : body (s.entered st) = .ok () (t.entered st)) :
    runOp (lastStep st body) s = .next t.finished := by
  rw [lastStep, runOp_enter, runOp_bind_ok h]
  rfl

/-- The operation of a state that ends its command by an error (60_exceptions R283). -/
theorem lastStep_raised {t : State} {e : ErrVal} (h : body (s.entered st) = .error (.raised e) t) :
    runOp (lastStep st body) s = .next (t.latch e) := by
  rw [lastStep, runOp_enter]
  exact runOp_raised (op_bind_error h)

/-! ### The end of a segment -/

/-- Padding and codeword, the parameters being admissible or not (40_bitreader R137, R138). -/
theorem segmentEnd_run (hs : s.Ready d) {size : Nat} (hpad : s.PadOk d size)
    (hlen : (s.afterSegment d size r).src.POS ≤ s.src.MEM.len) :
    (padsegOp size r >>= fun _ => crccheckOp r) s = .ok () (s.afterSegment d size r) := by
  have hmem := (afterPad_frame s d size r).2.2.1
  have hpos : (s.afterPad d size r).src.POS ≤ (s.afterSegment d size r).src.POS := Nat.le_add_right _ _
  rw [op_bind_ok (padsegOp_ok hs size r hpad (hpos.trans hlen))]
  exact crccheckOp_ok (State.afterPad_ready hs size r) r (hmem ▸ hlen)

/-- An overrun under the policy `fault` raises before the codeword (40_bitreader R137). -/
theorem segmentEnd_overrun (hd : s.br.DEPTH = some d) {size : Nat} (hpad : ¬s.PadOk d size) :
    (padsegOp size r >>= fun _ => crccheckOp r) s = .error (.raised (.segOverrun r)) s := by
  obtain ⟨hover, hfault⟩ := not_or.mp hpad
  exact op_bind_error ((padsegOp_past hd r (Nat.not_le.mp hover)).trans
    (if_pos ((Bool.not_eq_false _).mp hfault)))

theorem afterSegment_entered (s : State) (d : Depth) (size : Nat) (r : Region) (st : SeqState) :
    (s.entered st).afterSegment d size r = (s.afterSegment d size r).entered st := by
  have hpad : (s.entered st).afterPad d size r = (s.afterPad d size r).entered st := by
    rw [State.afterPad, State.afterPad, apply_ite (State.entered · st)]
    rfl
  rw [State.afterSegment, hpad]
  rfl

/-! ### Audio -/

theorem skipChannel_tableFree (c : Fin 8) : TableFree (skipChannel c) := by
  have hsample : TableFree getSample :=
    needDepth_tableFree.bind fun d => (getbitsOp_tableFree d.bits).bind fun _ => .pure _
  exact .get_bind (fun _ _ => rfl) fun _ => .repeatOp (hsample.bind fun _ => .pure ()) _

/-- The samples of channels `lo .. hi-1`, the parameters being admissible or not (44_audio_meter R250). -/
theorem skipChannels_run (hs : s.Ready d) (lo hi : Nat)
    (hlen : (s.consume d (s.sizeSum lo hi * d.bits)).src.POS ≤ s.src.MEM.len) :
    forEach skipChannel (idxRange lo hi) s = .ok () (s.consume d (s.sizeSum lo hi * d.bits)) :=
  Goes.run_of_tableFree (t := s.consume d (s.sizeSum lo hi * d.bits)) (.forEach skipChannel_tableFree _) hs rfl
    (fun h => skipChannels_goes h (idxRange lo hi)) hlen s.seq s.lastErr

/-- `AUDIOHALF` (44_audio_meter R250). -/
theorem audiohalfOp_run (hs : s.Ready d) (hlen : (s.afterHalf d lo hi r).src.POS ≤ s.src.MEM.len) :
    audiohalfOp lo hi r s = .ok () (s.afterHalf d lo hi r) := by
  obtain ⟨-, -, -, hmem, -⟩ := afterRegionStart_frame s d false
  have hready := State.afterRegionStart_ready hs false
  have hsize := afterRegionStart_sizeSum s d false lo hi
  rw [State.afterHalf, ← hsize] at hlen ⊢
  have hsamples : ((s.afterRegionStart d false).consume d
      ((s.afterRegionStart d false).sizeSum lo hi * d.bits)).src.POS ≤ s.src.MEM.len :=
    (Nat.le_add_right _ _).trans hlen
  have hregion : (s.afterRegionStart d false).src.POS ≤ s.src.MEM.len := (Nat.le_add_right _ _).trans hsamples
  rw [audiohalfOp, op_bind_ok (regionStartOp_ok hs false hregion),
    op_bind_ok (skipChannels_run hready lo hi (hmem ▸ hsamples))]
  exact crccheckOp_ok (State.consume_ready hready _) r (hmem ▸ hlen)

theorem State.afterHalf_ready (hs : s.Ready d) : (s.afterHalf d lo hi r).Ready d :=
  State.afterCrc_ready (State.consume_ready (State.afterRegionStart_ready hs false) _) r

/-- A half leaves the stream as it is and moves the position forward. -/
theorem afterHalf_src (s : State) (d : Depth) (lo hi : Nat) (r : Region) :
    (s.afterHalf d lo hi r).src.MEM = s.src.MEM ∧ s.src.POS ≤ (s.afterHalf d lo hi r).src.POS := by
  obtain ⟨-, -, -, hmem, hpos⟩ := afterRegionStart_frame s d false
  exact ⟨hmem, hpos.trans ((Nat.le_add_right _ _).trans (Nat.le_add_right _ _))⟩

/-- Both halves (44_audio_meter R251, R252). -/
theorem audioHalves_run (hs : s.Ready d) (hlen : (s.afterHalves d r0 r1).src.POS ≤ s.src.MEM.len) :
    audioHalves r0 r1 s = .ok () (s.afterHalves d r0 r1) := by
  obtain ⟨hmem, -⟩ := afterHalf_src s d 0 (s.fr.NCH.toNat / 2) r0
  have hpos : (s.afterHalf d 0 (s.fr.NCH.toNat / 2) r0).src.POS ≤ (s.afterHalves d r0 r1).src.POS :=
    (afterHalf_src _ d _ _ r1).2
  rw [audioHalves, op_bind_ok (op_get s), op_bind_ok (audiohalfOp_run hs (hpos.trans hlen))]
  exact audiohalfOp_run (State.afterHalf_ready hs) (hmem ▸ hlen)

theorem afterHalf_entered (s : State) (d : Depth) (lo hi : Nat) (r : Region) (st : SeqState) :
    (s.entered st).afterHalf d lo hi r = (s.afterHalf d lo hi r).entered st := by
  rw [State.afterHalf, afterRegionStart_entered]
  rfl

theorem afterHalves_entered (s : State) (d : Depth) (r0 r1 : Region) (st : SeqState) :
    (s.entered st).afterHalves d r0 r1 = (s.afterHalves d r0 r1).entered st := by
  rw [State.afterHalves, afterHalf_entered, afterHalf_entered]
  rfl

/-- The sequencer states `AUDIO` and `AUDIOEXT` (44_audio_meter R251, R252, 10_state R27). -/
theorem audioHalves_state (hs : s.Ready d) (hlen : (s.afterHalves d r0 r1).src.POS ≤ s.src.MEM.len) :
    runOp (seqStep st (audioHalves r0 r1) next) s = .next ((s.afterHalves d r0 r1).entered next) := by
  refine seqStep_ok ?_
  rw [← afterHalves_entered]
  refine audioHalves_run (hs.entered st) ?_
  rw [afterHalves_entered]
  exact hlen

/-! ### Meter -/

/-- The peaks of `n` channels, then their RMS values (44_audio_meter R253). -/
def readMeters (n : Nat) : Op Unit := do
  forEach readPeak (idxRange 0 n)
  forEach readRms (idxRange 0 n)

theorem meterOp_eq : meterOp = regionStartOp false >>= fun _ => (get : Op State) >>= fun u =>
    readMeters u.fr.NCH.toNat >>= fun _ => padsegOp u.fr.METSZ.toNat .meter >>= fun _ => crccheckOp .meter := by
  simp only [meterOp, readMeters, bind_assoc]

theorem readMeters_tableFree (n : Nat) : TableFree (readMeters n) := by
  have hpeak (c : Fin 8) : TableFree (readPeak c) := (getbitsOp_tableFree 10).bind fun _ _ _ => rfl
  have hrms (c : Fin 8) : TableFree (readRms c) := (getbitsOp_tableFree 10).bind fun _ _ _ => rfl
  exact (TableFree.forEach hpeak _).bind fun _ => .forEach hrms _

theorem readMeters_goes (hs : s.Legal d) (hn : s.fr.NCH.toNat ≤ 8) :
    Goes d (readMeters s.fr.NCH.toNat) s () (s.afterMeters d) := by
  have hpeaks := Goes.forEach_idxRange (f := readPeak) (s.peaksRead d) ((peaksRead_zero hs).symm ▸ hs) hn
    fun c h => readPeak_goes c h
  have hrms (h : (s.peaksRead d s.fr.NCH.toNat).Legal d) :=
    Goes.forEach_idxRange (f := readRms) (s.rmsRead d) ((rmsRead_zero s d).symm ▸ h) hn fun c h => readRms_goes c h
  rw [peaksRead_zero hs] at hpeaks
  rw [rmsRead_zero, rmsRead_all] at hrms
  exact hpeaks.bind fun h => hrms h.legal

/-- The meter values, the parameters being admissible or not (44_audio_meter R253). -/
theorem readMeters_run (hs : s.Ready d) (hn : s.fr.NCH.toNat ≤ 8)
    (hlen : (s.afterMeters d).src.POS ≤ s.src.MEM.len) :
    readMeters s.fr.NCH.toNat s = .ok () (s.afterMeters d) :=
  Goes.run_of_tableFree (t := s.afterMeters d) (readMeters_tableFree _) hs rfl (fun h => readMeters_goes h hn) hlen
    s.seq s.lastErr

/-- The state with the region of the meter segment begun and the values read (44_audio_meter R253). -/
def State.valuesRead (s : State) (d : Depth) : State := (s.afterRegionStart d false).afterMeters d

theorem afterMeter_eq (s : State) (d : Depth) :
    s.afterMeter d = (s.valuesRead d).afterSegment d s.fr.METSZ.toNat .meter := rfl

/-- `METER` up to the end of its segment (44_audio_meter R253). -/
theorem meterOp_run (hs : s.Ready d) (hn : s.fr.NCH.toNat ≤ 8) (hlen : (s.valuesRead d).src.POS ≤ s.src.MEM.len) :
    meterOp s = (padsegOp s.fr.METSZ.toNat .meter >>= fun _ => crccheckOp .meter) (s.valuesRead d) := by
  obtain ⟨hfr, -, -, hmem, -⟩ := afterRegionStart_frame s d false
  have hvalues := readMeters_run (State.afterRegionStart_ready hs false) (hfr ▸ hn) (hmem ▸ hlen)
  rw [meterOp_eq, op_bind_ok (regionStartOp_ok hs false ((Nat.le_add_right _ _).trans hlen)), op_bind_ok (op_get _),
    op_bind_ok hvalues, hfr, State.valuesRead]

theorem valuesRead_entered (s : State) (d : Depth) (st : SeqState) :
    (s.entered st).valuesRead d = (s.valuesRead d).entered st := by
  rw [State.valuesRead, afterRegionStart_entered]
  rfl

theorem State.valuesRead_ready (hs : s.Ready d) : (s.valuesRead d).Ready d :=
  have hread := State.consume_ready (State.afterRegionStart_ready hs false)
    (20 * (s.afterRegionStart d false).fr.NCH.toNat)
  ⟨hread.depth, hread.res⟩

/-- The operation of the state `METER`, up to the end of its segment (44_audio_meter R253, 10_state R27). -/
theorem meterOp_entered (hs : s.Ready d) (hn : s.fr.NCH.toNat ≤ 8)
    (hlen : (s.valuesRead d).src.POS ≤ s.src.MEM.len) :
    meterOp (s.entered st) = (padsegOp s.fr.METSZ.toNat .meter >>= fun _ => crccheckOp .meter)
      ((s.valuesRead d).entered st) := by
  have hrun := meterOp_run (hs.entered st) hn
  rw [valuesRead_entered] at hrun
  exact hrun hlen

/-- `METER`, its segment not overrun or an overrun only warning (44_audio_meter R253, 40_bitreader R137). -/
theorem meter_state (hs : s.Ready d) (hn : s.fr.NCH.toNat ≤ 8)
    (hpad : (s.valuesRead d).PadOk d s.fr.METSZ.toNat) (hlen : (s.afterMeter d).src.POS ≤ s.src.MEM.len) :
    runOp (seqStep st meterOp next) s = .next ((s.afterMeter d).entered next) := by
  obtain ⟨-, -, -, hmem, -⟩ := afterRegionStart_frame s d false
  obtain ⟨-, -, -, hpos⟩ := afterPad_frame (s.valuesRead d) d s.fr.METSZ.toNat .meter
  have hvalues : (s.valuesRead d).src.POS ≤ s.src.MEM.len := hpos.trans ((Nat.le_add_right _ _).trans hlen)
  refine seqStep_ok ?_
  rw [meterOp_entered hs hn hvalues, afterMeter_eq, ← afterSegment_entered]
  refine segmentEnd_run ((State.valuesRead_ready hs).entered st) hpad ?_
  rw [afterSegment_entered]
  exact hlen.trans_eq (congrArg Memory.len hmem.symm)

/-- `METER` overrun under the policy `fault` (44_audio_meter R253, 40_bitreader R137). -/
theorem meter_overrun (hs : s.Ready d) (hn : s.fr.NCH.toNat ≤ 8)
    (hpad : ¬(s.valuesRead d).PadOk d s.fr.METSZ.toNat) (hlen : (s.valuesRead d).src.POS ≤ s.src.MEM.len) :
    runOp (seqStep st meterOp next) s = .next (((s.valuesRead d).entered st).latch (.segOverrun .meter)) := by
  refine seqStep_raised ?_
  rw [meterOp_entered hs hn hlen]
  exact segmentEnd_overrun ((State.valuesRead_ready hs).entered st).depth hpad

/-! ### Completion -/

/-- One raw word of padding, or its lack (44_audio_meter R258). -/
theorem skipPadding_run (s : State) :
    skipPadding s = if s.src.POS + s.sampleBytes ≤ s.src.MEM.len then .ok () (s.advanced s.sampleBytes)
      else .error (.raised .padding) s := by
  rw [skipPadding, op_bind, srcReadWordOp_wordAt]
  split_ifs <;> rfl

/-- `n` words of padding that are in the stream (44_audio_meter R258). -/
theorem skipPaddings_within (hlen : s.src.POS + n * s.sampleBytes ≤ s.src.MEM.len) :
    repeatOp skipPadding n s = .ok () (s.advanced (n * s.sampleBytes)) := by
  induction n generalizing s with
  | zero => rw [repeatOp_zero, advanced_zero]
  | succ n ih =>
    rw [Nat.succ_mul] at hlen
    have hrest : s.src.POS + s.sampleBytes + n * s.sampleBytes ≤ s.src.MEM.len := by omega
    rw [repeatOp_succ, skipPadding_run, if_pos (by omega), Nat.succ_mul, Nat.add_comm (n * s.sampleBytes),
      ← advanced_advanced]
    exact ih hrest

/-- `n` words of padding not all of which are in the stream: the whole words that are there are skipped (44_audio_meter
R258). -/
theorem skipPaddings_past (hpos : s.src.POS ≤ s.src.MEM.len)
    (hlen : s.src.MEM.len < s.src.POS + n * s.sampleBytes) :
    repeatOp skipPadding n s = .error (.raised .padding)
      (s.advanced ((s.src.MEM.len - s.src.POS) / s.sampleBytes * s.sampleBytes)) := by
  have hbytes := sampleBytes_ge s
  induction n generalizing s with
  | zero => omega
  | succ n ih =>
    rw [Nat.succ_mul] at hlen
    rw [repeatOp_succ, skipPadding_run]
    by_cases hword : s.src.POS + s.sampleBytes ≤ s.src.MEM.len
    · have hrest : s.src.MEM.len < s.src.POS + s.sampleBytes + n * s.sampleBytes := by omega
      have hcount : (s.src.MEM.len - s.src.POS) / s.sampleBytes
          = (s.src.MEM.len - (s.src.POS + s.sampleBytes)) / s.sampleBytes + 1 := by
        rw [Nat.div_eq_sub_div (by omega) (by omega), Nat.sub_sub]
      rw [if_pos hword, hcount, Nat.succ_mul, Nat.add_comm (_ * s.sampleBytes), ← advanced_advanced]
      exact ih (s := s.advanced s.sampleBytes) hword hrest hbytes
    · rw [if_neg hword, Nat.div_eq_of_lt (by omega), advanced_zero]

/-- `COMPLETE` on a negative remainder (44_audio_meter R258). -/
theorem completeOp_negative (hd : s.br.DEPTH = some d) (hneg : s.expectedBytes d < s.br.BYTECNT) :
    completeOp s = .error (.raised .negRemainder) s := by
  rw [completeOp, op_bind_ok (needDepth_some hd), op_bind_ok (op_get s), if_pos hneg, raiseErr_run]

/-- `COMPLETE` otherwise: the residual buffer is emptied and the padding skipped (44_audio_meter R258). -/
theorem completeOp_run (hd : s.br.DEPTH = some d) (hrest : s.br.BYTECNT ≤ s.expectedBytes d) :
    completeOp s = repeatOp skipPadding ((s.expectedBytes d - s.br.BYTECNT) / s.sampleBytes)
      (s.setBr { s.br with RES := 0, RESCNT := 0 }) := by
  rw [completeOp, op_bind_ok (needDepth_some hd), op_bind_ok (op_get s), if_neg (Nat.not_lt.mpr hrest),
    op_bind_ok (updBr_run _ s)]

end

/-! ### Obligations -/

/-- Settles O55: the halves, and the meter values with the end of their segment, under any parameters. -/
theorem audioAndMeter : Obligations.AudioAndMeter := fun _ _ hs =>
  ⟨fun _ _ _ hlen => runOp_ok (audiohalfOp_run hs hlen), audioHalves_state hs, audioHalves_state hs, meter_state hs,
    meter_overrun hs⟩

/-- Settles O56: the remainder is compared first, then its words are there or not. -/
theorem completeResult : Obligations.CompleteResult := by
  refine fun s d hd => ⟨fun hrest hlen => ?_, fun hneg => ?_, fun hrest hpos hlen => ?_⟩
  · refine lastStep_ok ((completeOp_run (s := s.entered .complete) hd hrest).trans ?_)
    exact skipPaddings_within hlen
  · exact lastStep_raised (completeOp_negative (s := s.entered .complete) hd hneg)
  · refine lastStep_raised ((completeOp_run (s := s.entered .complete) hd hrest).trans ?_)
    exact skipPaddings_past hpos hlen

end Sys2Proof.Machine
end

section
/-! PROOF. The program configuration table by itself (45_progconfig R270 to R272): `PCFG` hands back the row of a code, or
raises for a code without a row. -/

namespace Sys2Proof.Machine

/-! ### PCFG -/

/-- `PCFG` of a code whose row is known (45_progconfig R270, R271). -/
theorem exec_pcfg_of_row {s : State} {c : BitVec 6} (hc : c.toNat < 24) {channels programs : Fin 9}
    (hrow : s.par.pcfgTable[c.toNat] = (channels, programs)) :
    exec (.pcfg c) s = .next (s.setRet (.pair channels.val programs.val)) := by
  obtain ⟨hlegal, -⟩ := codeClasses s
  obtain ⟨-, hpcfg, -⟩ := hlegal c hc
  rw [hpcfg, hrow]

/-- `PCFG` of a code without a row writes nothing but the error it raises (45_progconfig R270, 60_exceptions R283). -/
theorem exec_pcfg_bad {c : BitVec 6} (hc : ¬c ≤ 23#6) (s : State) :
    exec (.pcfg c) s = .next (s.latch (if c ≤ 62#6 then .pcfgReserved c else .pcfgIllegal c)) :=
  runOp_raised (op_bind_error (pcfgOp_bad hc s))

/-- A ConfigurationError is of kind 2 and leaves the machine idle (60_exceptions R281, R283). -/
theorem latch_configuration {e : ErrVal} (he : errKind e = .configuration) (s : State) :
    (s.latch e).seq.ERRK = 2 ∧ (s.latch e).seq.ST = .idle := by
  rw [latch_seq, he]
  exact ⟨rfl, rfl⟩

/-! ### Obligations -/

/-- Settles O43: the three rows an admissible table has, the two kinds of codes that raise, and the kind of their
errors. -/
theorem programConfigurations : Obligations.ProgramConfigurations := by
  refine fun s => ⟨fun hp => ⟨?_, ?_, ?_⟩, ?_, fun c h24 h62 => ?_, fun e he => latch_configuration he s⟩
  · exact exec_pcfg_of_row (c := 0) (by decide) hp.row0
  · exact exec_pcfg_of_row (c := 11) (by decide) hp.row11
  · exact exec_pcfg_of_row (c := 18) (by decide) hp.row18
  · exact exec_pcfg_bad (c := 63) (by decide) s
  · have hbad : ¬c ≤ 23#6 := Nat.not_le.mpr h24
    have hreserved : c ≤ 62#6 := h62
    rw [exec_pcfg_bad hbad, if_pos hreserved]

end Sys2Proof.Machine
end

section
/-! PROOF. Errors and events by themselves (60_exceptions R281 to R283, R290): `raise` writes the latch, `emit` the trace. -/

namespace Sys2Proof.Machine

/-! ### The latch and the trace -/

/-- The latch is written with the numbers of the error's kind and sub-code (60_exceptions R281 to R283). -/
theorem latch_eq_raisedAs (s : State) (e : ErrVal) : s.latch e = s.raisedAs e (kindCode (errKind e)) (errSub e) := rfl

/-- `raise` as an instruction, for every error value (60_exceptions R283). -/
theorem exec_raise (s : State) (e : ErrVal) :
    exec (.raise e) s = .next (s.raisedAs e (kindCode (errKind e)) (errSub e)) := by
  have hraised : exec (.raise e) s = .next (s.latch e) := runOp_raised (raiseErr_run e s)
  rw [hraised, latch_eq_raisedAs]

/-- `emit` as an instruction appends its event (60_exceptions R290). -/
theorem exec_emit (s : State) (e : Event) : exec (.emit e) s = .next (s.setEv (s.ev ++ [e])) :=
  runOp_ok (emitEvent_run e s)

/-! ### Obligations -/

/-- Settles O59: each error value has the numbers its kind and sub-code name, none is an IntegrityError, and an event only
lengthens the trace. -/
theorem raiseAndEmit : Obligations.RaiseAndEmit := fun s =>
  have hraise := exec_raise s
  ⟨fun _ => hraise _, fun _ => hraise _, fun _ => hraise _, fun _ => hraise _, fun _ => hraise _, fun _ => hraise _,
    fun _ => hraise _, fun _ => hraise _, fun _ => hraise _, fun _ => hraise _,
    hraise .midField, fun _ => hraise _, fun _ => hraise _, hraise .padding,
    hraise .negRemainder, fun _ => hraise _,
    errKind_ne_integrity, rfl, exec_emit s⟩

end Sys2Proof.Machine
end

section
/-! PROOF. Power-on reset (70_reset R320, R321). An array at reset holds one value in every element, so what is claimed of
its elements, in the values after reset and in the invariant's bounds, is a fact about that value. -/

namespace Sys2Proof.Machine

/-! ### Arrays with one value in every element -/

theorem replicate_getElem {α : Type} {n : Nat} (v : α) (i : Fin n) : (Vector.replicate n v)[i] = v :=
  Vector.getElem_replicate i.isLt

theorem DescText.Ok.replicate {par : Params} {t : DescText} (h : t.Ok par.descMax) : TextBounded par (.replicate 8 t) := by
  intro p
  rwa [replicate_getElem]

theorem RecsBounded.replicate {par : Params} {r : Ac3Rec} (h : ∀ f, (r.get f).toNat < 2 ^ par.recordWidth f) :
    RecsBounded par (.replicate 8 r) := by
  intro p f
  rw [replicate_getElem]
  exact h f

/-! ### The groups of registers at reset -/

/-- Registers without a character are within any `DESC_MAX` (10_state R40). -/
theorem DescText.ok_empty (max : Nat) (runOpen valid : Bool) : DescText.Ok max ⟨[], runOpen, [], valid⟩ where
  runLen := Nat.zero_le max
  descLen := Nat.zero_le max
  runPrintable := List.forall_mem_nil _
  descPrintable := List.forall_mem_nil _

@[simp] theorem Ac3Rec.reset_get (f : Ac3Field) : Ac3Rec.reset.get f = 0 := replicate_getElem 0 f.index

/-- Both loops' records are at reset (70_reset R321). -/
theorem reset_recs (base : Bool) : State.reset.recs base = .replicate 8 Ac3Rec.reset := by
  cases base <;> rfl

/-- A record at reset is within any widths. -/
theorem reset_recsBounded (par : Params) (base : Bool) : RecsBounded par (State.reset.recs base) := by
  rw [reset_recs]
  refine .replicate fun f => ?_
  rw [Ac3Rec.reset_get]
  exact Nat.two_pow_pos _

/-- Nothing is buffered (70_reset R321). -/
theorem reset_br_bounded : State.reset.br.Bounded := ⟨by decide, by decide⟩

/-- No channel and no program (70_reset R321). -/
theorem reset_fr_bounded : State.reset.fr.Bounded := ⟨by decide, by decide⟩

/-- At the start of the empty stream, no mark pending (70_reset R321, log 2). -/
theorem reset_src_bounded : State.reset.src.Bounded where
  mem := Memory.empty_wf
  pos := Nat.le_refl 0
  mark hmark := absurd hmark Bool.false_ne_true

theorem reset_held : Held State.reset where
  br := reset_br_bounded
  fr := reset_fr_bounded
  src := reset_src_bounded
  used := SeqState.noConfusion
  text := (DescText.ok_empty _ _ _).replicate
  recs := reset_recsBounded _
  par := defaultParams_ok

/-- Idle and not busy (70_reset R320). -/
theorem reset_settled : Settled State.reset where
  mp hbusy := absurd hbusy Bool.false_ne_true
  mpr hst := absurd rfl hst

/-! ### Obligations -/

/-- Settles O7: the bounds of each group of registers, and `BUSY` against `ST`. -/
theorem resetInv : Obligations.ResetInv := (inv_iff _).mpr ⟨reset_held, reset_settled⟩

/-- Settles O6: the scalar registers and the parameters as reset writes them, the arrays by their one element. -/
theorem resetValues : Obligations.ResetValues := by
  have hchannels (c : Fin 8) : State.reset.ch.CHSZ[c] = 0 ∧ State.reset.ch.REVID[c] = 0 ∧
      State.reset.ch.BITPOOL[c] = 0 ∧ State.reset.ch.BGAIN[c] = 0 ∧ State.reset.ch.EGAIN[c] = 0 ∧
      State.reset.ch.PEAK[c] = 0 ∧ State.reset.ch.RMS[c] = 0 :=
    ⟨replicate_getElem _ c, replicate_getElem _ c, replicate_getElem _ c, replicate_getElem _ c,
      replicate_getElem _ c, replicate_getElem _ c, replicate_getElem _ c⟩
  have hprograms (p : Fin 8) : State.reset.pg.DCHAR[p] = 0 ∧ State.reset.pg.BWID[p] = 0 ∧
      State.reset.ac3m[p] = Ac3Rec.reset ∧ State.reset.ac3x[p] = Ac3Rec.reset ∧
      State.reset.desc[p] = ⟨[], false, [], false⟩ :=
    ⟨replicate_getElem _ p, replicate_getElem _ p, replicate_getElem _ p, replicate_getElem _ p, replicate_getElem _ p⟩
  refine ⟨rfl, rfl, rfl, rfl, rfl, rfl, hchannels, hprograms, rfl, rfl, rfl, rfl, rfl, ?parameters⟩
  case parameters => exact ⟨rfl, rfl, rfl, rfl, rfl, rfl, rfl, rfl, rfl, rfl, rfl, rfl⟩

end Sys2Proof.Machine
end
